-- ==== Sys2Proof/Word.lean ====
section
/-! DEFINITION. The word types of the 4160 and the index types of its tables. -/

namespace Sys2Proof

/-- One character of the line, or one byte of host memory. -/
abbrev Byte := BitVec 8

/-- A 32-bit word: a register of the window, a tag, a take number. -/
abbrev Word := BitVec 32

/-- An outstation, as an index 0 to 39; its line address is the index plus 1 (chapter 0, Table 0-1). -/
abbrev StationId := Fin 40

/-- An exchange slot, 0 to 63 (R62). -/
abbrev SlotId := Fin 64

/-- A submission ring, SQ0 to SQ3 (chapter 8). -/
abbrev RingId := Fin 4

/-- The line address of a station, 1 to 40. -/
def StationId.addr (a : StationId) : Nat := a.val + 1

/-- The station an address names, if it lies in 1 to 40 (R3). -/
def stationOfAddr (n : Nat) : Option StationId :=
  if h : 1 ≤ n ∧ n ≤ 40 then some ⟨n - 1, by omega⟩ else none

/-- The ring a number names, if it lies in 0 to 3. -/
def ringOfNat (n : Nat) : Option RingId :=
  if h : n < 4 then some ⟨n, h⟩ else none

end Sys2Proof
end

