-- ==== Sys2Proof/Syntax.lean ====
section
/-! DEFINITION. The commands of the 4160: one constructor per row of spec/opcode_table.json, in the table's order. -/

namespace Sys2Proof

/-- The half of the configuration address a write sets (R193). -/
inductive Half where
  | lo | hi
  deriving DecidableEq, Repr

/-- The registers whose writes are ignored (R200, Table 11-5). -/
inductive ReadOnlyReg where
  | ident | state | cqTail | sqHead0 | sqHead1 | sqHead23
  deriving DecidableEq, Repr

/-- Why a reception is faulty at one character (R14). -/
inductive RxFault where
  /-- The character arrived with its stop bit at space (R1). -/
  | framingError
  /-- The character arrived whole, and its value is the fault: a first character other than SYNC, a LENGTH above
  120, or the last CHECK character with an unequal CHECK. -/
  | character (c : Byte)
  deriving DecidableEq, Repr

/-- The commands and events of the part. An operand is what the outside world supplies with the event: the word written
to a register, the bytes a host-memory read brings, the character the receiver samples, or which timer or slot. -/
inductive Instr where
  /-- Power-on (R191). -/
  | powerOn
  /-- COMMAND write of START (R193). -/
  | start
  /-- COMMAND write of SUSPEND_GRACEFUL (R175). -/
  | suspendGraceful
  /-- COMMAND write of SUSPEND_IMMEDIATE (R175). -/
  | suspendImmediate
  /-- COMMAND write of RESUME (R182). -/
  | resume
  /-- COMMAND write of LINE_RESET (R197). -/
  | lineReset
  /-- COMMAND write of FULL_RESET (R199). -/
  | fullReset
  /-- COMMAND write of a code that names no command (R192, R204). -/
  | unknownCommand (code : Word)
  /-- A write of CQ_HEAD (R169). -/
  | cqHeadWrite (v : Word)
  /-- A write of SQ_TAIL of one ring (R145). -/
  | sqTailWrite (r : RingId) (v : Word)
  /-- A write of IRQ_CAUSE (R171). -/
  | irqCauseWrite (v : Word)
  /-- A write of IRQ_ENABLE (R200). -/
  | irqEnableWrite (v : Word)
  /-- A write of CONFIG_LO or CONFIG_HI (R193). -/
  | configAddressWrite (half : Half) (v : Word)
  /-- A write of a register whose writes are ignored (R200). -/
  | ignoredRegisterWrite (reg : ReadOnlyReg) (v : Word)
  /-- Every read of the configuration record has completed; `data` is the record (R194). -/
  | configReadDone (data : List Byte)
  /-- A read of the configuration record ended in a bus error (R194). -/
  | configReadFault
  /-- The last transaction in flight has ended in RESETTING (R199). -/
  | resetComplete
  /-- The arbiter makes a choice (R113). -/
  | arbiterChoice
  /-- The empty-cycle timer runs out (R114). -/
  | emptyCycleTimerExpiry
  /-- A station's hold-off timer runs out (R52). -/
  | holdOffExpiry (a : StationId)
  /-- The last stop bit of a master frame ends (R7). -/
  | masterFrameEnd
  /-- The start limit passes with no start bit (R11). -/
  | startLimitExpiry
  /-- The gap limit passes in an incomplete station frame (R12). -/
  | gapLimitExpiry
  /-- The last character of a correct station frame arrives (R14). -/
  | frameReceived (c : Byte)
  /-- A character arrives that makes the reception GARBLED (R14). -/
  | garbledReception (why : RxFault)
  /-- A character is heard outside a listen period (R13). -/
  | lineActivity
  /-- The guard between two tries has elapsed (R25). -/
  | retryGuardElapsed
  /-- The read of a SEND block completes; `data` is what host memory held (R90). -/
  | blockReadDone (i : SlotId) (data : List Byte)
  /-- The read of a SEND block ends in a bus error (R92). -/
  | blockReadFault (i : SlotId)
  /-- The block write of a FETCH or QUERY completes (R95). -/
  | blockWriteDone (i : SlotId)
  /-- The block write of a FETCH or QUERY ends in a bus error (R97). -/
  | blockWriteFault (i : SlotId)
  /-- The fetcher starts an entry read (R147). -/
  | entryReadStart
  /-- The entry read completes; `data` is the 32-byte entry (R149). -/
  | entryReadDone (data : List Byte)
  /-- The entry read ends in a bus error (R157). -/
  | entryReadFault
  /-- The poster starts a record write (R164). -/
  | recordWriteStart
  /-- The record write completes (R161). -/
  | recordWriteDone
  /-- The record write ends in a bus error (R172). -/
  | recordWriteFault
  /-- The first part of the SUSPENDING sequence has ended (R176). -/
  | suspendQuiesced
  /-- The drain has ended and the image writes start (R179). -/
  | imageWriteStart
  /-- The writes of the station records and contexts have completed (R179). -/
  | imageWriteDone
  /-- An image write ended in a bus error (R179). -/
  | imageWriteFault
  /-- The header write of the image has completed (R180). -/
  | imageHeaderWriteDone
  /-- The read of the image header completes; `data` is the header (R183). -/
  | headerReadDone (data : List Byte)
  /-- The read of the station records completes; `data` is the 40 records (R184). -/
  | stationRecordsReadDone (data : List Byte)
  /-- The read of the contexts completes; `data` is the contexts (R185). -/
  | contextsReadDone (data : List Byte)
  /-- A read of the image ended in a bus error (R182). -/
  | imageReadFault
  /-- The SPENT write has completed (R188). -/
  | spentWriteDone
  /-- The SPENT write ended in a bus error (R188). -/
  | spentWriteFault
  /-- A faultless character of a station frame arrives that is not its last (R14). -/
  | stationCharacterReceived (c : Byte)
  deriving DecidableEq, Repr

end Sys2Proof
end

