-- ==== Sys2Proof/Decode.lean ====
section
/-! DEFINITION. The command a word spells. The opcode table gives no row any bits, so no word spells one by the table; the words
that the register COMMAND takes spell commands by Table 12-11. -/

namespace Sys2Proof

/-- The command that the low `nbits` bits of `w` spell by spec/opcode_table.json: none, since no row of it has bits. -/
def decodeTableWord (_nbits _w : Nat) : Option Instr := none

/-- The command that a write of COMMAND with this word is (Table 12-11, R204). A word outside the table names none. -/
def commandOf (code : Word) : Instr :=
  match code.toNat with
  | 1 => .start
  | 2 => .suspendGraceful
  | 3 => .suspendImmediate
  | 4 => .resume
  | 5 => .lineReset
  | 6 => .fullReset
  | _ => .unknownCommand code

end Sys2Proof
end

