-- ==== Sys2Proof/Config.lean ====
section
/-! DEFINITION. What the 4160 fixes for good: its figures and identification. No value of the spec is left
free by this model (INVENTORY.md, 'What the manual leaves open'), so no opaque constant stands here. -/

namespace Sys2Proof.Config

/-- IDENT of Table 12-12: vendor 4A46h, part 416h, revision 1. -/
def identWord : Word := 0x4A464161#32

/-- SYNC of every frame (R3). -/
def sync : Byte := 0xA6#8

/-- The longest frame payload (R3). -/
def maxPayload : Nat := 120

/-- The inter-character gap limit in ct (R12). -/
def gapLimit : Nat := 2

/-- The empty-cycle timer's full count in ct (R114). -/
def emptyCycleCt : Nat := 128

/-- The depth of the attention search stack (R128). -/
def stackDepth : Nat := 8

/-- The buffers of the report queue, the bound on unsolicited credits (R163). -/
def reportBuffers : Nat := 4

/-- The BUSY outcomes that end an exchange (R88). -/
def busyLimit : Nat := 16

/-- The DATA frames after which a FETCH without LAST overruns (R96). -/
def fetchFrameLimit : Nat := 512

/-- The bytes of the configuration record (12.5). -/
def configBytes : Nat := 744

/-- The magic of a valid image header and of a spent one (Table 12-6). -/
def magicValid : Nat := 0x4D470001
def magicSpent : Nat := 0x4D470002

/-- One past the highest host address: host addresses have 64 bits (R143). -/
def hostSpace : Nat := 2 ^ 64

end Sys2Proof.Config
end

