-- ==== Sys2Proof/Machine/State.lean ====
section
/-! DEFINITION. The state of the 4160, block by block (Table 0-2), and its value after power-on. -/

namespace Sys2Proof.Machine

/-! ### Controller, registers and line configuration (chapters 11 and 1) -/

/-- Controller states (Table 11-1). -/
inductive CtrlState where
  | off | configuring | running | suspending | suspended | resuming | halted | resetting
  deriving DecidableEq, Repr

/-- Last command result (R201). -/
inductive CmdResult where
  | none | accepted | refused
  deriving DecidableEq, Repr

/-- Fault codes (Table 11-4). -/
inductive FaultCode where
  | noFault | configRead | configBad | cqWrite | imageWrite | imageRead | imageBad | imageAlign
  deriving DecidableEq, Repr

/-- The controller and the registers it owns (R191, R193, R201). -/
structure Controller where
  state : CtrlState
  lastResult : CmdResult
  faultCode : FaultCode
  faultDetail : Nat
  configLo : Word
  configHi : Word
  deriving DecidableEq, Repr

/-- The sticky interrupt causes and the five enables, bit 0 CQ to bit 4 INDEX (Table 9-4, Table 12-12). -/
structure Interrupt where
  suspended : Bool
  resumed : Bool
  halted : Bool
  index : Bool
  enable : BitVec 5
  deriving DecidableEq, Repr

/-- The line values loaded at START: the rate code of 12.5, the guard G, the attention window A, the hold-off time H
(R1, R13, R11, R52). -/
structure LineConfig where
  rate : Nat
  guardTime : Nat
  attnWindow : Nat
  holdOffTime : Nat
  deriving DecidableEq, Repr

/-! ### The link engine (chapters 1 and 2) -/

/-- Master frame kinds (Table 1-2). -/
inductive MKind where
  | probe | clear | poll | write | read | safe | call
  deriving DecidableEq, Repr

/-- The frame image of a turn, without SYNC and with LENGTH understood from the payload (R6). -/
structure Image where
  address : Byte
  control : Byte
  payload : List Byte
  check : BitVec 16
  deriving DecidableEq, Repr

/-- A range of station addresses on the search stack, with its mark (R128). -/
structure SearchRange where
  lo : Nat
  hi : Nat
  second : Bool
  deriving DecidableEq, Repr

/-- Turn purposes with what each turn serves (Table 2-2). A join and a resync CLEAR are one purpose. -/
inductive Purpose where
  | exchange (i : SlotId) (a : StationId)
  | safe (i : SlotId)
  | poll (a : StationId)
  | linkClear (a : StationId)
  | recovery (a : StationId)
  | call (lo hi : Nat)
  | confirm (a : StationId)
  deriving DecidableEq, Repr

/-- The turn record (R22). A SAFE has no start limit. -/
structure Turn where
  purpose : Purpose
  kind : MKind
  image : Image
  startLimit : Option Nat
  allowed : Nat
  tries : Nat
  deriving DecidableEq, Repr

/-- Link engine phases (Table 2-1). -/
inductive LinkPhase where
  | idle | sending | listening | retryGuard
  deriving DecidableEq, Repr

/-- The link engine and its receiver. `phaseLeft` is the line time still to pass in the phase: of the frame being sent, of the
start limit, or of the gap limit. `late` is the model's own: that limit has been exceeded, so no start bit counts as within it any
more (R11, R12). `guardLeft` is the part of the guard still to pass since the moment of last line use (R13).
`rx` holds the characters of the station frame in reception, empty before its first (R14). -/
structure Link where
  phase : LinkPhase
  turn : Option Turn
  phaseLeft : Nat
  late : Bool
  guardLeft : Nat
  rx : List Byte
  driverEnable : Bool
  deriving DecidableEq, Repr

/-! ### The station table (chapter 3) -/

/-- Station states (Table 3-3). -/
inductive StState where
  | vacant | down | joining | up | fenced
  deriving DecidableEq, Repr

/-- Notice causes (Table 3-6). -/
inductive NoticeCause where
  | configured | vacated | joined | failed | restarted | outOfStep | fenced | unfenced | lineReset
  deriving DecidableEq, Repr

/-- A station entry: the configuration fields of Table 3-1 and the link fields of Table 3-2. `holdOff` is the remainder of a
running hold-off timer. `notice` is the last cause while the notice is pending. -/
structure Station where
  present : Bool
  timeout : Nat
  retryLimit : Nat
  downLimit : Nat
  depth : Nat
  targetDepth : Nat
  blockSize : Nat
  attnEnabled : Bool
  superOnly : Bool
  state : StState
  m : Bool
  failures : Nat
  resync : Bool
  holdOff : Option Nat
  offered : Option Nat
  notice : Option NoticeCause
  deriving DecidableEq, Repr

/-! ### The exchange store (chapters 4 and 5) -/

/-- Exchange kinds (Table 5-1, 12.7). -/
inductive ExKind where
  | send | fetch | query | probe | clear | safe | stationSet | fence | unfence | cancel | barrier
  deriving DecidableEq, Repr

/-- Exchange statuses (Table 12-10). -/
inductive Status where
  | ok | invalidKind | notPermitted | badStation | badLength | stationProtected | windowFault
  | stationVacant | stationFenced | stationDown | noResponse | protocol | outOfStep | stationRestarted
  | rejected | unsupported | stationBusy | overrun | memoryFault | cancelled | notFound | tooLate | noEffect
  | lineReset | dropped | imageInvalid
  deriving DecidableEq, Repr

/-- The IDENT fields a PROBE carries into its record (R100). -/
structure Ident where
  type : BitVec 16
  version : Byte
  size : Nat
  deriving DecidableEq, Repr

/-- The offset, size and LAST bit of a SEND block (R89). -/
structure BlockForm where
  offset : Nat
  size : Nat
  last : Bool
  deriving DecidableEq, Repr

/-- A block read from host memory and held for its WRITE (R90). -/
structure HeldBlock where
  form : BlockForm
  data : List Byte
  deriving DecidableEq, Repr

/-- The configuration fields a STATION_SET carries (Table 12-3). -/
structure SetFields where
  present : Bool
  timeout : Nat
  retryLimit : Nat
  downLimit : Nat
  depth : Nat
  blockSize : Nat
  attnEnabled : Bool
  superOnly : Bool
  deriving DecidableEq, Repr

/-- Where a slot's exchange stands between FREE and DONE. HEAD, WAITING and IN_TURN follow from the lists and the turn
(Table 4-2, `slotState`). -/
inductive SlotLife where
  | free | active | done
  deriving DecidableEq, Repr

/-- The five slot states (Table 4-2). -/
inductive SlotState where
  | free | waiting | head | inTurn | done
  deriving DecidableEq, Repr

/-- A slot record (Table 4-1). `station` is absent for SAFE and BARRIER. `blocks` counts the repeats made of a SAFE. `tries` 0 is
an absent try count. `ident` and `held` are what PROBE and SEND keep (R100, R90). `order` is the model's own stamp of the order
of take across rings (R120, R156). -/
structure Slot where
  life : SlotLife
  tag : Word
  ring : RingId
  take : Word
  kind : Option ExKind
  station : Option StationId
  buf : Nat
  len : Nat
  urgent : Bool
  begun : Bool
  bytes : Nat
  blocks : Nat
  tries : Nat
  busy : Nat
  unknown : Bool
  cancelBy : Option SlotId
  targetTag : Word
  targetRing : RingId
  repeats : Nat
  fields : Option SetFields
  result : Option Status
  ident : Option Ident
  held : Option HeldBlock
  order : Nat
  deriving DecidableEq, Repr

/-- A slotless result on its way to its record (R64). `station` is the entry's station field as it stood (R156, R165). -/
structure Slotless where
  ring : RingId
  tag : Word
  take : Word
  station : Nat
  status : Status
  deriving DecidableEq, Repr

/-- An entry of the post list (R81). -/
inductive PostEntry where
  | slot (i : SlotId)
  | slotless (r : Slotless)
  deriving DecidableEq, Repr

/-- The exchange store: the pool and its lists (R63). -/
structure Store where
  slots : Vector Slot 64
  lists : Vector (List SlotId) 40
  safeList : List SlotId
  barriers : Vector (List SlotId) 4
  followers : List SlotId
  postList : List PostEntry
  nextOrder : Nat
  deriving DecidableEq, Repr

/-! ### The line arbiter and the attention resolver (chapters 6 and 7) -/

/-- Arbiter state (Table 6-1). -/
structure Arbiter where
  schedule : List StationId
  ratio : Nat
  probeInterval : Nat
  attnInterval : Nat
  cursor : Nat
  cycle : Word
  joinPtr : Nat
  workPtr : Nat
  recPtr : Nat
  workCount : Nat
  recoveryDue : Bool
  emptyTimer : Option Nat
  deriving DecidableEq, Repr

/-- The resolver's step in progress (Table 7-1). -/
inductive AttnStep where
  | none
  | call (r : SearchRange)
  | confirm
  deriving DecidableEq, Repr

/-- Attention resolver state (Table 7-1). -/
structure Resolver where
  lo : Nat
  hi : Nat
  stack : List SearchRange
  latched : Option StationId
  reserved : Bool
  step : AttnStep
  deriving DecidableEq, Repr

/-! ### The fetcher (chapter 8) -/

/-- Ring classes and priorities (Table 8-1). -/
inductive RingClass where
  | general | supervisory
  deriving DecidableEq, Repr
inductive Priority where
  | normal | urgent
  deriving DecidableEq, Repr

/-- One submission ring: its descriptor (Table 8-1), its indices (R144) and its fetcher items (Table 8-2). -/
structure Ring where
  enabled : Bool
  base : Nat
  size : Nat
  cls : RingClass
  prio : Priority
  head : Nat
  tail : Nat
  staged : Option (List Byte)
  held : Bool
  faulted : Bool
  nextTake : Word
  deriving DecidableEq, Repr

/-- A window (Table 8-7). -/
structure Window where
  base : Nat
  length : Nat
  genRead : Bool
  genWrite : Bool
  deriving DecidableEq, Repr

/-- The fetcher: rings, rotation pointer and window table (Table 8-2, R153). -/
structure Fetcher where
  rings : Vector Ring 4
  rotation : Option RingId
  windows : List Window
  deriving DecidableEq, Repr

/-! ### The completion poster (chapter 9) -/

inductive ReportSource where
  | poll | attention
  deriving DecidableEq, Repr

/-- A report in the report queue (R166). -/
structure Report where
  station : StationId
  payload : List Byte
  source : ReportSource
  deriving DecidableEq, Repr

/-- Poster state (Table 9-1). The notice flags stand in the station entries. -/
structure Poster where
  base : Nat
  size : Nat
  tail : Nat
  head : Nat
  phase : Bool
  unconsumed : Nat
  exCredits : Nat
  unsolCredits : Nat
  writeCredit : Nat
  reports : List Report
  ringFault : Vector Bool 4
  stray : Vector Bool 40
  deriving DecidableEq, Repr

/-! ### The suspend unit (chapter 10) -/

inductive SuspMode where
  | graceful | immediate
  deriving DecidableEq, Repr

/-- The three parts of the SUSPENDING sequence (10.3). -/
inductive SuspPart where
  | quiet | drain | image
  deriving DecidableEq, Repr

/-- The fields of an image header (Table 10-3). -/
structure ImageHeader where
  magic : Nat
  version : Nat
  stations : Nat
  contexts : Nat
  takes : Vector Word 4
  nextBase : Nat
  deriving DecidableEq, Repr

/-- The sequence item of Table 10-1. A RESUMING sequence keeps the header once it has been read. -/
inductive Sequence where
  | none
  | suspending (mode : SuspMode) (part : SuspPart)
  | resuming (header : Option ImageHeader)
  deriving DecidableEq, Repr

/-- Suspend unit state (Table 10-1). -/
structure SuspendUnit where
  imageBase : Nat
  seq : Sequence
  saved : Nat
  deriving DecidableEq, Repr

/-! ### The system port: host-memory transactions in flight (0.3, R87, R147, R161, R179, R182, R194) -/

/-- A block transfer of one slot (R87). -/
inductive Transfer where
  | read (form : BlockForm) (addr : Nat)
  | write (addr : Nat) (data : List Byte)
  deriving DecidableEq, Repr

/-- The entry read outstanding; `discard` is set when LINE_RESET discards its result (R159). -/
structure EntryRead where
  ring : RingId
  index : Nat
  addr : Nat
  discard : Bool
  deriving DecidableEq, Repr

/-- What a record write was made from (Table 9-3). -/
inductive RecSource where
  | post | report | event
  deriving DecidableEq, Repr

/-- The record write in progress (R161). -/
structure RecordWrite where
  source : RecSource
  addr : Nat
  data : List Byte
  deriving DecidableEq, Repr

/-- A transaction of the suspend unit (R179, R182 to R188). -/
inductive ImageTxn where
  | bodyWrite (addr : Nat) (data : List Byte)
  | headerWrite (addr : Nat) (data : List Byte)
  | headerRead (addr : Nat)
  | stationsRead (addr : Nat)
  | contextsRead (addr len : Nat)
  | spentWrite (addr : Nat) (data : List Byte)
  deriving DecidableEq, Repr

/-- The transactions in flight at the bus-master engine. They outlive the blocks that started them: in HALTED and RESETTING
each still completes (R198, R199). -/
structure Port where
  config : Option Nat
  entry : Option EntryRead
  xfer : Vector (Option Transfer) 64
  record : Option RecordWrite
  image : Option ImageTxn
  deriving DecidableEq, Repr

/-! ### The whole state -/

/-- The state of the part, and the queue of commands that wait, first in, first out. -/
structure State where
  ctrl : Controller
  irq : Interrupt
  line : LineConfig
  link : Link
  stations : Vector Station 40
  store : Store
  arb : Arbiter
  res : Resolver
  fetch : Fetcher
  post : Poster
  susp : SuspendUnit
  port : Port
  pending : List Instr
  deriving DecidableEq, Repr

/-- A stuck state: the event named by the command cannot happen in this state, and the spec gives it no effect here. Every
constructor is raised by the meaning of such an event. SAFE: the model stops and no claim can be drawn from the step. -/
inductive Fault where
  /-- An event of the line or a timer in a controller state or link phase in which it cannot occur. Safe. -/
  | noSuchLineEvent
  /-- A completion for which no transaction of that kind is in flight. Safe. -/
  | noSuchTransaction
  /-- A read completes with another number of bytes than was asked for. Safe. -/
  | wrongLength
  /-- An engine of the part is told to start work, or a sequence to go on, while its conditions do not hold. Safe. -/
  | notStartable
  deriving DecidableEq, Repr

/-- Why a command is given no meaning. -/
inductive Refusal where
  /-- Raised by `exec` alone, for a command without a meaning yet. Safe. -/
  | notModelled (mnemonic : String)
  deriving DecidableEq, Repr

/-! ### Power-on values -/

/-- A station entry after power-on (R41, Table 3-2). -/
def Station.reset : Station :=
  { present := false, timeout := 0, retryLimit := 0, downLimit := 0, depth := 0, targetDepth := 0, blockSize := 0,
    attnEnabled := false, superOnly := false, state := .vacant, m := false, failures := 0, resync := false,
    holdOff := none, offered := none, notice := none }

/-- A slot after power-on (R62). -/
def Slot.reset : Slot :=
  { life := .free, tag := 0, ring := 0, take := 0, kind := none, station := none, buf := 0, len := 0, urgent := false,
    begun := false, bytes := 0, blocks := 0, tries := 0, busy := 0, unknown := false, cancelBy := none, targetTag := 0,
    targetRing := 0, repeats := 0, fields := none, result := none, ident := none, held := none, order := 0 }

/-- A ring after power-on (R143, Table 8-2). -/
def Ring.reset : Ring :=
  { enabled := false, base := 0, size := 0, cls := .general, prio := .normal, head := 0, tail := 0, staged := none,
    held := false, faulted := false, nextTake := 0 }

def Controller.reset : Controller :=
  { state := .off, lastResult := .none, faultCode := .noFault, faultDetail := 0, configLo := 0, configHi := 0 }

def Interrupt.reset : Interrupt :=
  { suspended := false, resumed := false, halted := false, index := false, enable := 0 }

/-- DESIGN CHOICE (notes/assumptions/1.md): the spec states no power-on value for rate, G, A and H. -/
def LineConfig.reset : LineConfig := { rate := 0, guardTime := 0, attnWindow := 0, holdOffTime := 0 }

/-- DESIGN CHOICE for the timers of an idle engine (notes/assumptions/1.md). -/
def Link.reset : Link :=
  { phase := .idle, turn := none, phaseLeft := 0, late := false, guardLeft := 0, rx := [], driverEnable := false }

def Store.reset : Store :=
  { slots := Vector.replicate 64 Slot.reset, lists := Vector.replicate 40 [], safeList := [],
    barriers := Vector.replicate 4 [], followers := [], postList := [], nextOrder := 0 }

def Arbiter.reset : Arbiter :=
  { schedule := [], ratio := 0, probeInterval := 0, attnInterval := 0, cursor := 0, cycle := 0, joinPtr := 0, workPtr := 0,
    recPtr := 0, workCount := 0, recoveryDue := false, emptyTimer := none }

def Resolver.reset : Resolver :=
  { lo := 0, hi := 0, stack := [], latched := none, reserved := false, step := .none }

def Fetcher.reset : Fetcher := { rings := Vector.replicate 4 Ring.reset, rotation := none, windows := [] }

def Poster.reset : Poster :=
  { base := 0, size := 0, tail := 0, head := 0, phase := true, unconsumed := 0, exCredits := 0, unsolCredits := 0,
    writeCredit := 0, reports := [], ringFault := Vector.replicate 4 false, stray := Vector.replicate 40 false }

def SuspendUnit.reset : SuspendUnit := { imageBase := 0, seq := .none, saved := 0 }

def Port.reset : Port :=
  { config := none, entry := none, xfer := Vector.replicate 64 none, record := none, image := none }

/-- The machine right after power-on: every block at its power-on values, the controller in OFF (R191, R202). -/
def State.reset : State :=
  { ctrl := .reset, irq := .reset, line := .reset, link := .reset, stations := Vector.replicate 40 Station.reset,
    store := .reset, arb := .reset, res := .reset, fetch := .reset, post := .reset, susp := .reset, port := .reset,
    pending := [] }

end Sys2Proof.Machine
end

