-- ==== Sys2Proof/Machine/Operands.lean ====
section
/-! DEFINITION. The byte layouts of chapter 12: little-endian fields, enumeration codes, the submission entry. -/

namespace Sys2Proof.Machine

/-! ### Little-endian fields (R203) -/

/-- The low `n` bytes of `v`, least significant first. -/
def leBytes : Nat → Nat → List Byte
  | 0, _ => []
  | n + 1, v => BitVec.ofNat 8 v :: leBytes n (v / 256)

/-- The value of bytes, least significant first. -/
def leVal : List Byte → Nat
  | [] => 0
  | b :: bs => b.toNat + 256 * leVal bs

/-- The `n`-byte field at offset `off`. -/
def fieldAt (bs : List Byte) (off n : Nat) : Nat := leVal ((bs.drop off).take n)

/-- The byte at offset `off`. -/
def byteAt (bs : List Byte) (off : Nat) : Nat := fieldAt bs off 1

/-- Bit `k` of a number. -/
def bitOf (v k : Nat) : Bool := v / 2 ^ k % 2 == 1

/-- `n` zero bytes. -/
def zeros (n : Nat) : List Byte := List.replicate n 0

/-- A yes-or-no field's code (R203). -/
def yesNo (n : Nat) : Option Bool :=
  if n = 0 then some false else if n = 1 then some true else none

/-- A flag as a number. -/
def flagNat (b : Bool) : Nat := if b then 1 else 0

/-! ### Codes (12.7, 12.5) -/

def CtrlState.code : CtrlState → Nat
  | .off => 0 | .configuring => 1 | .running => 2 | .suspending => 3 | .suspended => 4 | .resuming => 5
  | .halted => 6 | .resetting => 7

def CmdResult.code : CmdResult → Nat
  | .none => 0 | .accepted => 1 | .refused => 2

def FaultCode.code : FaultCode → Nat
  | .noFault => 0 | .configRead => 1 | .configBad => 2 | .cqWrite => 3 | .imageWrite => 4 | .imageRead => 5
  | .imageBad => 6 | .imageAlign => 7

def StState.code : StState → Nat
  | .vacant => 0 | .down => 1 | .joining => 2 | .up => 3 | .fenced => 4

def StState.ofCode : Nat → Option StState
  | 0 => some .vacant | 1 => some .down | 2 => some .joining | 3 => some .up | 4 => some .fenced | _ => none

def NoticeCause.code : NoticeCause → Nat
  | .configured => 1 | .vacated => 2 | .joined => 3 | .failed => 4 | .restarted => 5 | .outOfStep => 6
  | .fenced => 7 | .unfenced => 8 | .lineReset => 9

def NoticeCause.ofCode : Nat → Option NoticeCause
  | 1 => some .configured | 2 => some .vacated | 3 => some .joined | 4 => some .failed | 5 => some .restarted
  | 6 => some .outOfStep | 7 => some .fenced | 8 => some .unfenced | 9 => some .lineReset | _ => none

/-- Table 5-1, with CANCEL 10 and BARRIER 11 (12.7). -/
def ExKind.code : ExKind → Nat
  | .send => 1 | .fetch => 2 | .query => 3 | .probe => 4 | .clear => 5 | .safe => 6 | .stationSet => 7
  | .fence => 8 | .unfence => 9 | .cancel => 10 | .barrier => 11

def ExKind.ofCode : Nat → Option ExKind
  | 1 => some .send | 2 => some .fetch | 3 => some .query | 4 => some .probe | 5 => some .clear | 6 => some .safe
  | 7 => some .stationSet | 8 => some .fence | 9 => some .unfence | 10 => some .cancel | 11 => some .barrier | _ => none

/-- Table 12-10. -/
def Status.code : Status → Nat
  | .ok => 0 | .invalidKind => 1 | .notPermitted => 2 | .badStation => 3 | .badLength => 4 | .stationProtected => 5
  | .windowFault => 6 | .stationVacant => 7 | .stationFenced => 8 | .stationDown => 9 | .noResponse => 10
  | .protocol => 11 | .outOfStep => 12 | .stationRestarted => 13 | .rejected => 14 | .unsupported => 15
  | .stationBusy => 16 | .overrun => 17 | .memoryFault => 18 | .cancelled => 19 | .notFound => 20 | .tooLate => 21
  | .noEffect => 22 | .lineReset => 23 | .dropped => 24 | .imageInvalid => 25

def ReportSource.code : ReportSource → Nat
  | .poll => 1 | .attention => 2

/-! ### Kinds of exchange -/

/-- The five kinds that use the line to one station and stand in a station list (Table 4-4). -/
def ExKind.usesLine : ExKind → Bool
  | .send | .fetch | .query | .probe | .clear => true
  | _ => false

/-- The kinds with a buffer (Table 8-3). -/
def ExKind.hasBuffer : ExKind → Bool
  | .send | .fetch | .query => true
  | _ => false

/-- A field that only a kind with a buffer has: 0 stands for absent (Tables 4-1 and 10-5). -/
def ExKind.ofBuffer (k : ExKind) (n : Nat) : Nat := if k.hasBuffer then n else 0

/-- The repeat count, which only a SAFE has: 0 stands for absent (Tables 4-1 and 10-5). -/
def ExKind.ofSafe (k : ExKind) (n : Nat) : Nat := if k == .safe then n else 0

/-- The kinds that only a SUPERVISORY ring may submit (Table 8-5; CANCEL is judged by its target ring). -/
def ExKind.supervisory : ExKind → Bool
  | .clear | .safe | .stationSet | .fence | .unfence => true
  | _ => false

/-- The kinds whose station field is used (R150). -/
def ExKind.usesStation : ExKind → Bool
  | .safe | .barrier => false
  | _ => true

/-- The range of a length or capacity (Table 8-6). -/
def ExKind.lengthInRange (k : ExKind) (n : Nat) : Bool :=
  match k with
  | .send | .fetch => 1 ≤ n && n ≤ 4096
  | .query => 1 ≤ n && n ≤ 48
  | _ => true

/-! ### The submission entry (Table 12-3) -/

/-- The fields of an entry as its bytes give them, before any check. -/
structure Entry where
  kind : Nat
  station : Nat
  arg : Nat
  tag : Word
  buf : Nat
  len : Nat
  targetTag : Word
  present : Nat
  timeout : Nat
  retryLimit : Nat
  downLimit : Nat
  depth : Nat
  blockSize : Nat
  attnEnabled : Nat
  superOnly : Nat
  deriving DecidableEq, Repr

def Entry.ofBytes (bs : List Byte) : Entry :=
  { kind := byteAt bs 0, station := byteAt bs 1, arg := byteAt bs 2, tag := BitVec.ofNat 32 (fieldAt bs 4 4),
    buf := fieldAt bs 8 8, len := fieldAt bs 16 2, targetTag := BitVec.ofNat 32 (fieldAt bs 8 4),
    present := byteAt bs 8, timeout := byteAt bs 9, retryLimit := byteAt bs 10, downLimit := byteAt bs 11,
    depth := byteAt bs 12, blockSize := byteAt bs 13, attnEnabled := byteAt bs 14, superOnly := byteAt bs 15 }

/-- The configuration fields of a STATION_SET that has passed step 4. -/
def Entry.setFields (e : Entry) : SetFields :=
  { present := e.present == 1, timeout := e.timeout, retryLimit := e.retryLimit, downLimit := e.downLimit,
    depth := e.depth, blockSize := e.blockSize, attnEnabled := e.attnEnabled == 1, superOnly := e.superOnly == 1 }

/-- The ranges of the station configuration fields (Table 3-1, Table 8-6), without present. -/
def stationRanges (t retry d depth block attn super : Nat) : Bool :=
  4 ≤ t && t ≤ 255 && retry ≤ 7 && 1 ≤ d && d ≤ 15 && 1 ≤ depth && depth ≤ 16 && 8 ≤ block && block ≤ 120
    && attn ≤ 1 && super ≤ 1

/-- Step 4 of validation: every field the kind uses lies in its range, and no buffer passes the end of the address
space (R151). -/
def Entry.rangesOk (e : Entry) (k : ExKind) : Bool :=
  match k with
  | .send | .fetch | .query => k.lengthInRange e.len && e.buf + e.len ≤ Config.hostSpace
  | .safe => 1 ≤ e.arg && e.arg ≤ 4
  | .cancel => e.arg ≤ 3
  | .stationSet =>
    e.present ≤ 1 && stationRanges e.timeout e.retryLimit e.downLimit e.depth e.blockSize e.attnEnabled e.superOnly
  | _ => true

end Sys2Proof.Machine
end

