-- ==== Sys2Proof/Machine/Frame.lean ====
section
/-! DEFINITION. The line frame: CHECK, the master frame's image, the receiver's checks and the meaning of a station
frame (chapters 1 and 12.2). -/

namespace Sys2Proof.Machine

/-! ### Characters (R1, Table 1-1) -/

/-- The line levels of a character, one per bit time, mark as true: the start bit at space, the eight data bits least significant
first, the stop bit at mark. -/
def charBits (c : Byte) : List Bool := false :: (List.range 8).map c.getLsbD ++ [true]

/-- What the receiver makes of the ten bits that follow a falling edge, each sampled at its middle. -/
inductive CharSample where
  /-- The start bit is at mark: the edge was noise, and nothing is counted. -/
  | noise
  /-- The stop bit is at space. -/
  | framingError
  /-- A faultless character. -/
  | character (c : Byte)
  deriving DecidableEq, Repr

/-- The byte whose bits are these, least significant first. -/
def byteOfBits (bits : List Bool) : Byte := BitVec.ofNat 8 (bits.foldr (fun b n => flagNat b + 2 * n) 0)

/-- A character as it is sampled: first the start bit, last the stop bit. -/
def sampleChar (levels : List Bool) : CharSample :=
  if levels.headD true then .noise
  else if levels.getD 9 true then .character (byteOfBits ((levels.drop 1).take 8))
  else .framingError

/-- The eight line rates in bit/s, by the code of 12.5. -/
def lineRates : List Nat := [9600, 19200, 38400, 57600, 115200, 250000, 500000, 1000000]

/-- One character time in seconds at a line rate: ten bit times. -/
def charTime (rate : Nat) : Rat := 10 / rate

/-! ### CHECK (R4) -/

/-- One bit shift of the CHECK register with generator 1021h. -/
def crcShift (c : BitVec 16) : BitVec 16 :=
  if c.getLsbD 15 then (c <<< 1) ^^^ 0x1021#16 else c <<< 1

/-- One byte entering the CHECK register, most significant bit first. -/
def crcByte (c : BitVec 16) (b : Byte) : BitVec 16 :=
  (List.replicate 8 ()).foldl (fun c _ => crcShift c) (c ^^^ ((b.setWidth 16) <<< 8))

/-- CHECK over a run of bytes; the register starts at FFFFh. -/
def crc (bs : List Byte) : BitVec 16 := bs.foldl crcByte 0xFFFF#16

/-! ### Master frames (R5 to R7, Table 1-2) -/

def MKind.code : MKind → Nat
  | .probe => 1 | .clear => 2 | .poll => 3 | .write => 4 | .read => 5 | .safe => 6 | .call => 7

/-- The three sequenced kinds (1.3). -/
def MKind.sequenced : MKind → Bool
  | .poll | .write | .read => true
  | _ => false

/-- The CONTROL character of a master frame: KIND, M, LAST; FRESH and bit 7 are 0 (R5, Table 12-2). -/
def controlOf (k : MKind) (m last : Bool) : Byte :=
  BitVec.ofNat 8 (k.code + 16 * flagNat m + 64 * flagNat last)

/-- The frame image of a turn, CHECK included (R6). -/
def Image.make (addr : Nat) (k : MKind) (m last : Bool) (payload : List Byte) : Image :=
  let a : Byte := BitVec.ofNat 8 addr
  let c := controlOf k m last
  { address := a, control := c, payload := payload,
    check := crc (a :: c :: BitVec.ofNat 8 payload.length :: payload) }

/-- The M bit an image carries. -/
def Image.m (im : Image) : Bool := im.control.getLsbD 4

/-- The characters of a master frame on the line, SYNC first and CHECK high byte first (R3, R4). -/
def Image.chars (im : Image) : List Byte :=
  Config.sync :: im.address :: im.control :: BitVec.ofNat 8 im.payload.length :: im.payload
    ++ [im.check.extractLsb' 8 8, im.check.extractLsb' 0 8]

/-- The time on the line of a master frame: 6 + LENGTH ct (R3, R7). -/
def Image.time (im : Image) : Nat := 6 + im.payload.length

/-! ### Reception (R12, R14) -/

/-- What the characters heard so far amount to. -/
inductive RxProgress where
  | incomplete | garbled | frame
  deriving DecidableEq, Repr

/-- Whether a complete run of characters has an equal CHECK over ADDRESS to PAYLOAD (R14). -/
def checkEqual (chars : List Byte) : Bool :=
  let n := chars.length - 2
  let c := crc ((chars.take n).drop 1)
  chars.drop n == [c.extractLsb' 8 8, c.extractLsb' 0 8]

/-- The receiver's judgement of the faultless characters heard so far, in the order of R14. -/
def rxProgress (chars : List Byte) : RxProgress :=
  if chars.head? ≠ some Config.sync then .garbled
  else if chars.length < 4 then .incomplete
  else if byteAt chars 3 > Config.maxPayload then .garbled
  else if chars.length < 6 + byteAt chars 3 then .incomplete
  else if chars.length = 6 + byteAt chars 3 && checkEqual chars then .frame
  else .garbled

/-- A station frame as the receiver hands it on (R14). -/
structure RxFrame where
  address : Byte
  control : Byte
  payload : List Byte
  deriving DecidableEq, Repr

def RxFrame.ofChars (chars : List Byte) : RxFrame :=
  { address := chars.getD 1 0, control := chars.getD 2 0, payload := (chars.drop 4).take (byteAt chars 3) }

def RxFrame.kind (f : RxFrame) : Nat := f.control.toNat % 16
def RxFrame.m (f : RxFrame) : Bool := f.control.getLsbD 4
def RxFrame.fresh (f : RxFrame) : Bool := f.control.getLsbD 5
def RxFrame.last (f : RxFrame) : Bool := f.control.getLsbD 6

/-- The station a frame names: ADDRESS less 80h (R10). -/
def RxFrame.station (f : RxFrame) : Option StationId :=
  if 0x81 ≤ f.address.toNat then stationOfAddr (f.address.toNat - 0x80) else none

/-! ### Station frames (R9, Table 1-3) -/

inductive NakReason where
  | busy | reject | unsupported
  deriving DecidableEq, Repr

/-- A well-formed station frame with the fields its kind gives meaning to. -/
inductive Answer where
  | ident (i : Ident)
  | ack
  | nak (r : NakReason)
  | report (payload : List Byte)
  | none
  | data (payload : List Byte) (last : Bool)
  | attn
  deriving DecidableEq, Repr

/-- The answer a FRAME carries; absent when the frame is malformed (R9). -/
def RxFrame.answer (f : RxFrame) : Option Answer :=
  let p := f.payload
  match f.kind with
  | 0x8 =>
    if p.length = 4 ∧ 8 ≤ byteAt p 3 ∧ byteAt p 3 ≤ 120 then
      some (.ident { type := BitVec.ofNat 16 (256 * byteAt p 0 + byteAt p 1), version := p.getD 2 0, size := byteAt p 3 })
    else Option.none
  | 0x9 => if p.length = 0 then some .ack else Option.none
  | 0xA =>
    if p.length = 1 then
      match byteAt p 0 with
      | 1 => some (.nak .busy)
      | 2 => some (.nak .reject)
      | 3 => some (.nak .unsupported)
      | _ => Option.none
    else Option.none
  | 0xB => if 1 ≤ p.length ∧ p.length ≤ 48 then some (.report p) else Option.none
  | 0xC => if p.length = 0 then some .none else Option.none
  | 0xD => if p.length ≤ Config.maxPayload then some (.data p f.last) else Option.none
  | 0xE => if p.length = 0 then some .attn else Option.none
  | _ => Option.none

/-- The answers allowed for each master kind (Table 1-2). -/
def MKind.allows : MKind → Answer → Bool
  | .probe, .ident _ => true
  | .clear, .ack => true
  | .poll, .report _ => true
  | .poll, .none => true
  | .write, .ack => true
  | .write, .nak _ => true
  | .read, .data _ _ => true
  | .read, .nak _ => true
  | .call, .attn => true
  | _, _ => false

/-! ### Judging a FRAME (R26 to R28) -/

/-- The six outcomes of a turn to one station (Table 2-4). An ANSWERED PROBE also reports FRESH (R27). -/
inductive TurnOutcome where
  | answered (a : Answer) (fresh : Bool)
  | busy
  | failed
  | unexpected
  | outOfStep
  | fresh
  deriving DecidableEq, Repr

/-- The judgement of a FRAME on a turn to one station, in the order of Table 2-3; absent for a wrong address, which counts as
GARBLED (R26). -/
def judge (k : MKind) (a : StationId) (m : Bool) (f : RxFrame) : Option TurnOutcome :=
  if f.station ≠ some a then Option.none
  else match f.answer with
    | Option.none => some .unexpected
    | some ans =>
      if !k.allows ans then some .unexpected
      else if f.fresh && k != .probe then some .fresh
      else if k.sequenced && f.m != m then some .outOfStep
      else if ans = .nak .busy then some .busy
      else some (.answered ans f.fresh)

/-- The results of a CALL step (R28). -/
inductive CallResult where
  | silent | garbled
  | attn (a : StationId)
  deriving DecidableEq, Repr

/-- The judgement of a FRAME on a CALL step over [lo, hi] (R28). -/
def judgeCall (lo hi : Nat) (f : RxFrame) : CallResult :=
  match f.station, f.answer with
  | some a, some .attn => if lo ≤ a.addr ∧ a.addr ≤ hi then .attn a else .garbled
  | _, _ => .garbled

end Sys2Proof.Machine
end

