-- ==== Sys2Proof/Machine/Ops.lean ====
section
/-! DEFINITION. The named operations over the state: access to the tables, completion-ring credits, line time, and entry
into HALTED. -/

namespace Sys2Proof.Machine

/-- What a meaning answers. -/
abbrev Reply := Host.Outcome State Fault Refusal

/-! ### Table access -/

def State.stn (s : State) (a : StationId) : Station := s.stations[a.val]

def State.setStn (s : State) (a : StationId) (x : Station) : State :=
  { s with stations := s.stations.set a.val x }

def State.slot (s : State) (i : SlotId) : Slot := s.store.slots[i.val]

def State.setSlot (s : State) (i : SlotId) (x : Slot) : State :=
  { s with store := { s.store with slots := s.store.slots.set i.val x } }

/-- The list of a station, head first (R65). -/
def State.list (s : State) (a : StationId) : List SlotId := s.store.lists[a.val]

def State.setList (s : State) (a : StationId) (l : List SlotId) : State :=
  { s with store := { s.store with lists := s.store.lists.set a.val l } }

/-- The barrier list of a ring (R76). -/
def State.barrier (s : State) (r : RingId) : List SlotId := s.store.barriers[r.val]

def State.setBarrier (s : State) (r : RingId) (l : List SlotId) : State :=
  { s with store := { s.store with barriers := s.store.barriers.set r.val l } }

def State.ring (s : State) (r : RingId) : Ring := s.fetch.rings[r.val]

def State.setRing (s : State) (r : RingId) (x : Ring) : State :=
  { s with fetch := { s.fetch with rings := s.fetch.rings.set r.val x } }

/-- The block transfer of a slot in flight (R87). -/
def State.xfer (s : State) (i : SlotId) : Option Transfer := s.port.xfer[i.val]

def State.setXfer (s : State) (i : SlotId) (t : Option Transfer) : State :=
  { s with port := { s.port with xfer := s.port.xfer.set i.val t } }

/-- An entry joins the tail of the post list (R81). -/
def State.addPost (s : State) (e : PostEntry) : State :=
  { s with store := { s.store with postList := s.store.postList ++ [e] } }

def State.setCtrl (s : State) (c : CtrlState) : State := { s with ctrl := { s.ctrl with state := c } }

def State.setResult (s : State) (r : CmdResult) : State := { s with ctrl := { s.ctrl with lastResult := r } }

def State.setSeq (s : State) (q : Sequence) : State := { s with susp := { s.susp with seq := q } }

/-- No block acts on what reaches the part: a transaction that completes in HALTED or RESETTING is applied to no block
(R198, R199). -/
def State.deaf (s : State) : Bool := s.ctrl.state == .halted || s.ctrl.state == .resetting

def State.running (s : State) : Bool := s.ctrl.state == .running

/-! ### Places of a slot (Table 4-2) -/

/-- The slot of the exchange whose turn is in progress (R63, R69). -/
def State.turnSlot (s : State) : Option SlotId :=
  match s.link.turn with
  | some t => match t.purpose with
    | .exchange i _ => some i
    | .safe i => some i
    | _ => none
  | none => none

/-- The slot of a station's exchange that is IN_TURN, if its turn is in progress. -/
def State.turnSlotOf (s : State) (a : StationId) : Option SlotId :=
  match s.link.turn with
  | some t => match t.purpose with
    | .exchange i b => if b = a then some i else none
    | _ => none
  | none => none

/-- The slot stands at the head of the list its kind puts it in. -/
def State.isHead (s : State) (i : SlotId) : Bool :=
  let x := s.slot i
  match x.kind with
  | some .safe => s.store.safeList.head? == some i
  | some .barrier => (s.barrier x.ring).head? == some i
  | _ => match x.station with
    | some a => (s.list a).head? == some i
    | none => false

/-- The slot state of Table 4-2. -/
def State.slotState (s : State) (i : SlotId) : SlotState :=
  match (s.slot i).life with
  | .free => .free
  | .done => .done
  | .active =>
    if s.turnSlot = some i then .inTurn
    else if i ∈ s.store.followers then .waiting
    else if s.isHead i then .head
    else .waiting

/-- The lowest-numbered FREE slot (R62). -/
def State.freeSlot (s : State) : Option SlotId :=
  (List.finRange 64).find? fun i => (s.slot i).life == .free

/-! ### Credits (R162, R163) -/

def Poster.reserved (p : Poster) : Nat := p.exCredits + p.unsolCredits + p.writeCredit

def Poster.free (p : Poster) : Nat := p.size - p.unconsumed - p.reserved

/-- Room for an unsolicited turn: a free position and a buffer of the report queue (R163). -/
def Poster.unsolFree (p : Poster) : Bool := 1 ≤ p.free && p.unsolCredits < Config.reportBuffers

/-- Reserve the exchange credit of an entry read. -/
def State.reserveEx (s : State) : State := { s with post := { s.post with exCredits := s.post.exCredits + 1 } }

/-- Return `n` exchange credits unused. -/
def State.returnEx (s : State) (n : Nat) : State := { s with post := { s.post with exCredits := s.post.exCredits - n } }

/-- Reserve the unsolicited credit of a poll turn or a CALL step. -/
def State.reserveUnsol (s : State) : State :=
  { s with post := { s.post with unsolCredits := s.post.unsolCredits + 1 } }

/-- Return an unsolicited credit unused. -/
def State.returnUnsol (s : State) : State :=
  { s with post := { s.post with unsolCredits := s.post.unsolCredits - 1 } }

/-- A received report joins the queue under its credit (R166). -/
def State.queueReport (s : State) (r : Report) : State :=
  { s with post := { s.post with reports := s.post.reports ++ [r] } }

/-! ### Line time (R13, R52, R112) -/

/-- A running timer after `n` ct. The last ct ends at the timer's own expiry event, so the remainder stays at least 1
(notes/assumptions/3.md). -/
def timerAfter (n : Nat) (t : Option Nat) : Option Nat := t.map fun r => max 1 (r - n)

/-- `n` ct pass at the link engine: for the guard and for the limit of its phase. A listen period whose limit was shorter than that is
late: the limit's own event has to come before any further character (R11, R12). -/
def Link.elapse (x : Link) (n : Nat) : Link :=
  { x with
    guardLeft := x.guardLeft - n
    phaseLeft := x.phaseLeft - n
    late := x.late || (x.phase == .listening && x.phaseLeft < n) }

/-- `n` ct pass on the line clock: in RUNNING for every timer, in SUSPENDING for the link engine alone, else for
nothing (R52, R112, R176, R198). -/
def State.elapse (s : State) (n : Nat) : State :=
  match s.ctrl.state with
  | .running =>
    { s with
      link := s.link.elapse n
      stations := Vector.ofFn fun a => { s.stn a with holdOff := timerAfter n (s.stn a).holdOff }
      arb := { s.arb with emptyTimer := timerAfter n s.arb.emptyTimer } }
  | .suspending => { s with link := s.link.elapse n }
  | _ => s

/-- The moment of last line use moves forward to now (R13). -/
def State.lineUsed (s : State) : State := { s with link := { s.link with guardLeft := s.line.guardTime } }

/-- The link engine returns to IDLE with no turn record. -/
def State.linkIdle (s : State) : State :=
  { s with link := { s.link with phase := .idle, turn := none, phaseLeft := 0, late := false, rx := [], driverEnable := false } }

/-! ### HALTED (R198) -/

/-- The line is released, and a turn in progress is abandoned on it, which counts as line use (R15). The turn record stays. -/
def State.releaseLine (s : State) : State :=
  { s with link := { s.link with
      driverEnable := false, guardLeft := if s.link.turn.isSome then s.line.guardTime else s.link.guardLeft } }

/-- Entry into HALTED: the fault code and detail, the sticky cause, the line released, and every block left as it stands. -/
def State.halt (s : State) (c : FaultCode) (detail : Nat) : State :=
  { s.releaseLine with
    ctrl := { s.ctrl with state := .halted, faultCode := c, faultDetail := detail }
    irq := { s.irq with halted := true } }

/-- Stations in ascending address order after a pointer, wrapping from 40 to 1; a pointer of 0 names none (R112). -/
def stationsAfter (p : Nat) : List StationId :=
  (List.finRange 40).filter (fun a => p ≤ a.val) ++ (List.finRange 40).filter (fun a => a.val < p)

/-- The first station after a pointer that satisfies `q`. -/
def firstStation (p : Nat) (q : StationId → Bool) : Option StationId := (stationsAfter p).find? q

end Sys2Proof.Machine
end

