-- ==== Sys2Proof/Machine/Store.lean ====
section
/-! DEFINITION. The exchange store's shared operations: placing, leaving a list, ending, followers, block reads, barriers
(chapters 4 and 5). -/

namespace Sys2Proof.Machine

/-! ### Joining a list -/

/-- The urgent flags of the slots decide places in a station list. -/
def State.isUrgent (s : State) (i : SlotId) : Bool := (s.slot i).urgent

/-- Place behind the last of the leading urgent entries (R67, R68). DESIGN CHOICE (notes/assumptions/28.md): urgent entries that stand
behind a normal one, as only an edited image can leave them, are not counted. -/
def State.behindUrgent (s : State) (i : SlotId) (l : List SlotId) : List SlotId :=
  l.takeWhile s.isUrgent ++ i :: l.dropWhile s.isUrgent

/-- The station list with slot `i` placed: a normal exchange at the tail (R66), an urgent one behind the urgent entries and
behind an IN_TURN head (R67). -/
def State.placed (s : State) (a : StationId) (i : SlotId) : List SlotId :=
  let l := s.list a
  if s.isUrgent i then
    match l with
    | [] => [i]
    | h :: t => if s.turnSlot = some h then h :: s.behindUrgent i t else s.behindUrgent i l
  else l ++ [i]

/-- A slot joins a station's list at its take. -/
def State.joinList (s : State) (a : StationId) (i : SlotId) : State := s.setList a (s.placed a i)

/-- After a turn, a normal head with more to do moves behind the urgent entries that stand behind it (R68). -/
def State.reorder (s : State) (a : StationId) : State :=
  match s.list a with
  | [] => s
  | h :: t => if s.isUrgent h then s else s.setList a (s.behindUrgent h t)

/-! ### Leaving a list -/

/-- While depth is above target depth, each departure lowers it by one (R42). -/
def Station.reduceDepth (x : Station) : Station :=
  if x.targetDepth < x.depth then { x with depth := x.depth - 1 } else x

/-- A slot leaves the station list, and the station table hears of it (R65). -/
def State.leaveStation (s : State) (a : StationId) (i : SlotId) : State :=
  if i ∈ s.list a then (s.setList a ((s.list a).erase i)).setStn a (s.stn a).reduceDepth else s

/-- A slot leaves the list its kind puts it in. -/
def State.leave (s : State) (i : SlotId) : State :=
  let x := s.slot i
  match x.kind with
  | some .safe => { s with store := { s.store with safeList := s.store.safeList.erase i } }
  | some .barrier => s.setBarrier x.ring ((s.barrier x.ring).erase i)
  | _ => match x.station with
    | some a => s.leaveStation a i
    | none => s

/-! ### Ending -/

/-- A slot's result is fixed, its held block is discarded (R93), and it joins the tail of the post list. -/
def State.finish (s : State) (i : SlotId) (st : Status) : State :=
  (s.setSlot i { s.slot i with life := .done, result := some st, held := none }).addPost (.slot i)

/-- An exchange leaves its list and ends (R81). -/
def State.endExchange (s : State) (i : SlotId) (st : Status) : State := (s.leave i).finish i st

/-- The followers of the ended or abandoned turn pass to the post list in order; `cancel` is the result of a CANCEL among
them, the others keep the result of their take (R73). -/
def State.flushFollowers (s : State) (cancel : Status) : State :=
  let s' := { s with store := { s.store with followers := [] } }
  s.store.followers.foldl (fun t i =>
    let x := t.slot i
    t.finish i (if x.kind = some .cancel then cancel else x.result.getD .ok)) s'

/-- A list purge: every exchange of the station's list ends with `st`, in list order, except those `keep` names and the exchange
whose turn is in progress (R58, R59). -/
def State.purge (s : State) (a : StationId) (keep : Slot → Bool) (st : Status) : State :=
  ((s.list a).filter fun i => !keep (s.slot i) && s.turnSlot != some i).foldl (fun t i => t.endExchange i st) s

/-- The status of a FENCED or VACANT station reaches the exchange whose turn is in progress, unless a result is fixed
already (R59). -/
def State.fixEarly (s : State) (a : StationId) (st : Status) : State :=
  match s.turnSlotOf a with
  | some i =>
    let x := s.slot i
    if x.result = none then s.setSlot i { x with result := some st } else s
  | none => s

/-! ### Block transfers -/

/-- The effective block size (R54). -/
def Station.effectiveBlock (x : Station) : Nat :=
  match x.offered with
  | some o => min x.blockSize o
  | none => x.blockSize

/-- The next block of a SEND: at offset bytes moved, the smaller of the effective block size and the bytes still to send,
LAST at the end of the buffer (R89). DESIGN CHOICE (notes/assumptions/36.md): with no byte left, as only an edited image can leave it,
the block has 0 bytes and LAST. -/
def nextBlock (x : Slot) (block : Nat) : BlockForm :=
  { offset := x.bytes, size := min block (x.len - x.bytes), last := x.len ≤ x.bytes + block }

/-- The SEND at the head of a station list that holds no block and has no transfer outstanding, and whose turn is not in
progress (R90). -/
def State.readDue (s : State) (a : StationId) : Option SlotId :=
  match s.list a with
  | [] => none
  | i :: _ =>
    let x := s.slot i
    if x.kind = some .send ∧ x.held = none ∧ s.xfer i = none ∧ s.turnSlot ≠ some i then some i else none

/-- The store starts the block read that is due for a station, of a block formed now (R89). DESIGN CHOICE (notes/assumptions/34.md):
a block that SUSPEND_IMMEDIATE abandoned is formed afresh too, at the size that is effective now. -/
def State.startRead (s : State) (a : StationId) : State :=
  match s.readDue a with
  | some i =>
    let x := s.slot i
    s.setXfer i (some (.read (nextBlock x (s.stn a).effectiveBlock) (x.buf + x.bytes)))
  | none => s

/-- In RUNNING the store starts every block read that is due (R90). -/
def State.startReads (s : State) : State :=
  if s.running then (List.finRange 40).foldl State.startRead s else s

/-! ### Barriers (R75, R76) -/

/-- Take number `x` is earlier than `y`: `y` exceeds it by 1 to 2^31 - 1 modulo 2^32 (R75). -/
def takeEarlier (x y : Word) : Bool := 1 ≤ (y - x).toNat && (y - x).toNat ≤ 2 ^ 31 - 1

/-- An exchange of ring `r` taken before `n` is still unposted (R76). -/
def State.earlierUnposted (s : State) (r : RingId) (n : Word) : Bool :=
  (List.finRange 64).any (fun i =>
    let x := s.slot i
    x.life != .free && x.ring == r && takeEarlier x.take n)
  || s.store.postList.any fun e => match e with
    | .slotless q => q.ring == r && takeEarlier q.take n
    | .slot _ => false

/-- The head of a ring's barrier list ends OK when no exchange taken earlier from its ring is unposted (R76). DESIGN CHOICE
(notes/assumptions/39.md): the BARRIER that becomes head because this one ended is not tested here. R76 has it wait at least until this
one is posted, as an earlier exchange of the ring; take numbers that an edited image put out of order do not change that. -/
def State.testBarrier (s : State) (r : RingId) : State :=
  match s.barrier r with
  | [] => s
  | i :: _ => if s.earlierUnposted r (s.slot i).take then s else s.endExchange i .ok

/-! ### CANCEL's search (R77) -/

/-- What a CANCEL may find: a running exchange of the ring with the tag that is no follower. -/
def State.cancelTarget (s : State) (r : RingId) (tag : Word) : Option SlotId :=
  (List.finRange 64).find? fun i =>
    let x := s.slot i
    x.life == .active && x.ring == r && x.tag == tag && i ∉ s.store.followers
      && x.kind != some .cancel && x.kind != some .stationSet && x.kind != some .fence

end Sys2Proof.Machine
end

