-- ==== Sys2Proof/Machine/Stations.lean ====
section
/-! DEFINITION. The station table: state changes with their purges and notices, and the effects of a turn's outcome
(chapter 3). -/

namespace Sys2Proof.Machine

/-- RESYNC is held in UP and JOINING alone (R51). -/
def Station.withResync (x : Station) : Station :=
  if x.state = .up ∨ x.state = .joining then { x with resync := true } else x

def State.setResync (s : State) (a : StationId) : State := s.setStn a (s.stn a).withResync

/-- The notice flag is set with its cause, which replaces any pending one (R60). -/
def State.notify (s : State) (a : StationId) (c : NoticeCause) : State := s.setStn a { s.stn a with notice := some c }

/-! ### State changes: link fields, then purge, then notice (R44) -/

/-- The link fields that entering DOWN sets. -/
def Station.toDown (x : Station) : Station := { x with state := .down, holdOff := none, resync := false }

/-- The link fields that entering JOINING sets. -/
def Station.toJoining (x : Station) : Station := { x with state := .joining, holdOff := none }

/-- The link fields that entering FENCED sets. -/
def Station.toFenced (x : Station) : Station :=
  { x with state := .fenced, m := false, failures := 0, resync := false, holdOff := none }

/-- The link fields that entering VACANT sets. -/
def Station.toVacant (x : Station) : Station :=
  { x with state := .vacant, m := false, failures := 0, resync := false, holdOff := none, offered := none }

/-- The DOWN purge spares PROBE exchanges (R58). -/
def Slot.isProbe (x : Slot) : Bool := x.kind == some .probe

def State.enterDown (s : State) (a : StationId) (c : NoticeCause) : State :=
  ((s.setStn a (s.stn a).toDown).purge a Slot.isProbe .stationDown).notify a c

/-- Entry into JOINING purges nothing (R49); from DOWN by a PROBE it sets no notice (Table 3-4). -/
def State.enterJoining (s : State) (a : StationId) (c : Option NoticeCause) : State :=
  let t := s.setStn a (s.stn a).toJoining
  match c with
  | some c => t.notify a c
  | none => t

def State.enterUp (s : State) (a : StationId) : State :=
  (s.setStn a { s.stn a with state := .up }).notify a .joined

def State.enterFenced (s : State) (a : StationId) : State :=
  (((s.setStn a (s.stn a).toFenced).fixEarly a .stationFenced).purge a (fun _ => false) .stationFenced).notify a .fenced

def State.enterVacant (s : State) (a : StationId) : State :=
  (((s.setStn a (s.stn a).toVacant).fixEarly a .stationVacant).purge a (fun _ => false) .stationVacant).notify a .vacated

/-! ### Turn outcomes at the station table (Table 3-5) -/

/-- A FAILED or UNEXPECTED turn raises the consecutive-failure count by one (R46). -/
def Station.fail (x : Station) : Station := { x with failures := x.failures + 1 }

/-- A station that was heard: its failures return to 0. -/
def Station.heard (x : Station) : Station := { x with failures := 0 }

/-- In UP, the count is tested against D after a raise (R46). -/
def State.failTest (s : State) (a : StationId) : State :=
  if (s.stn a).downLimit ≤ (s.stn a).failures then s.enterDown a .failed else s

/-- An outcome at an UP station. `m` is the M of the turn's image. -/
def State.outcomeUp (s : State) (a : StationId) (k : MKind) (m : Bool) (o : TurnOutcome) : State :=
  let x := s.stn a
  match o with
  | .answered ans fresh => match k with
    | .probe =>
      let size := match ans with
        | .ident i => some i.size
        | _ => x.offered
      let t := s.setStn a { x.heard with offered := size }
      if fresh then t.enterJoining a (some .restarted) else t
    | .clear => s.setStn a { x.heard with m := false, resync := false }
    | .poll | .write | .read => s.setStn a { x.heard with m := !m }
    | .safe | .call => s
  | .busy => s.setStn a { x.heard with holdOff := some s.line.holdOffTime }
  | .failed => (s.setStn a (if k.sequenced then { x.fail with resync := true } else x.fail)).failTest a
  | .unexpected => (s.setStn a { x.fail with resync := true }).failTest a
  | .outOfStep => (s.setStn a x.heard).enterJoining a (some .outOfStep)
  | .fresh => (s.setStn a x.heard).enterJoining a (some .restarted)

/-- An outcome at a JOINING station. -/
def State.outcomeJoining (s : State) (a : StationId) (k : MKind) (m : Bool) (o : TurnOutcome) : State :=
  let x := s.stn a
  match o with
  | .answered ans _ => match k with
    | .probe => match ans with
      | .ident i => s.setStn a { x.heard with offered := some i.size }
      | _ => s.setStn a x.heard
    | .clear => (s.setStn a { x.heard with m := false, resync := false }).enterUp a
    | .poll | .write | .read => s.setStn a { x.heard with m := !m }
    | .safe | .call => s
  | .busy => s.setStn a x.heard
  | .failed => if k = .clear then (s.setStn a x.fail).enterDown a .failed else s.setStn a x.fail
  | .unexpected => if k = .clear then (s.setStn a x.fail).enterDown a .failed else s.setStn a x.fail
  | .outOfStep => s.setStn a x.heard
  | .fresh => s.setStn a x.heard

/-- An outcome at a DOWN station: only an ANSWERED PROBE changes the entry (R45). -/
def State.outcomeDown (s : State) (a : StationId) (k : MKind) (o : TurnOutcome) : State :=
  match o, k with
  | .answered (.ident i) _, .probe => (s.setStn a { (s.stn a).heard with offered := some i.size }).enterJoining a none
  | _, _ => s

/-- The station table applies a turn's outcome in the state it finds the station in (R45). -/
def State.stationOutcome (s : State) (a : StationId) (k : MKind) (m : Bool) (o : TurnOutcome) : State :=
  match (s.stn a).state with
  | .up => s.outcomeUp a k m o
  | .joining => s.outcomeJoining a k m o
  | .down => s.outcomeDown a k o
  | .fenced => s
  | .vacant => s

/-! ### Orders at take (R55 to R57) -/

/-- The configuration fields of a STATION_SET are written, depth held up by a longer list (R41, R42). -/
def Station.withFields (x : Station) (f : SetFields) (count : Nat) : Station :=
  { x with
    present := f.present, timeout := f.timeout, retryLimit := f.retryLimit, downLimit := f.downLimit,
    targetDepth := f.depth, depth := max f.depth count,
    blockSize := f.blockSize, attnEnabled := f.attnEnabled, superOnly := f.superOnly }

/-- A STATION_SET at its take (R55). -/
def State.stationSet (s : State) (a : StationId) (f : SetFields) : State :=
  let t := s.setStn a ((s.stn a).withFields f (s.list a).length)
  match f.present, (s.stn a).state with
  | true, .vacant =>
    (t.setStn a { t.stn a with m := false, failures := 0, offered := none }).enterDown a .configured
  | true, _ => t
  | false, .vacant => t
  | false, _ => t.enterVacant a

/-- A FENCE at its take (R56). -/
def State.fence (s : State) (a : StationId) : State :=
  match (s.stn a).state with
  | .down => s.enterFenced a
  | .joining => s.enterFenced a
  | .up => s.enterFenced a
  | .fenced => s
  | .vacant => s

/-- An UNFENCE at its take, with the status it ends with (R57, R106). -/
def State.unfence (s : State) (a : StationId) : State × Status :=
  if (s.stn a).state = .fenced then (s.enterDown a .unfenced, .ok) else (s, .noEffect)

end Sys2Proof.Machine
end

