-- ==== Sys2Proof/Machine/Exchange.lean ====
section
/-! DEFINITION. What a turn's result means for its exchange, and how the exchange is settled at the turn's end or
abandonment (chapters 4 and 5). -/

namespace Sys2Proof.Machine

/-- Whether a turn's result ends its exchange. -/
inductive Settle where
  | ends (st : Status)
  | more
  deriving DecidableEq, Repr

/-- A block write starts for a slot, unless it carries no byte (R94). -/
def State.startWrite (s : State) (i : SlotId) (addr : Nat) (data : List Byte) : State :=
  if data = [] then s else s.setXfer i (some (.write addr data))

/-- The status of a refusing NAK (R91, R98). -/
def NakReason.status : NakReason → Settle
  | .busy => .more
  | .reject => .ends .rejected
  | .unsupported => .ends .unsupported

/-- A DATA answer to a FETCH: the frame counts, its bytes are written as far as they fit, and LAST, a full buffer or the frame
limit ends it (R94, R96). -/
def State.fetchData (s : State) (i : SlotId) (p : List Byte) (last : Bool) : State × Settle :=
  let x := s.slot i
  let room := x.len - x.bytes
  let n := x.blocks + 1
  let t := (s.setSlot i { x with blocks := n }).startWrite i (x.buf + x.bytes) (p.take room)
  if room < p.length then (t, .ends .overrun)
  else if last then (t, .ends .ok)
  else if p.length = room ∨ Config.fetchFrameLimit ≤ n then (t, .ends .overrun)
  else (t, .more)

/-- An answer to an exchange turn, by the exchange's kind (R91, R94, R98 to R101). A pair that no judgement yields leaves the
exchange as it was. -/
def State.applyAnswer (s : State) (i : SlotId) (ans : Answer) : State × Settle :=
  let x := s.slot i
  match x.kind, ans with
  | some .send, .ack => match x.held with
    | some h =>
      (s.setSlot i { x with bytes := x.bytes + h.form.size, blocks := x.blocks + 1, held := none },
        if h.form.last then .ends .ok else .more)
    | none => (s, .more)
  | some .send, .nak r => (s, r.status)
  | some .fetch, .data p last => s.fetchData i p last
  | some .fetch, .nak r => (s, r.status)
  | some .query, .report p =>
    ((s.setSlot i { x with bytes := 0 }).startWrite i x.buf (p.take x.len),
      .ends (if p.length ≤ x.len then .ok else .overrun))
  | some .query, .none => (s.setSlot i { x with bytes := 0 }, .ends .ok)
  | some .probe, .ident d => (s.setSlot i { x with ident := some d }, .ends .ok)
  | some .clear, .ack => (s, .ends .ok)
  | _, _ => (s, .more)

/-- The result of a turn for its exchange (R86, R88). -/
def State.applyOutcome (s : State) (i : SlotId) (o : TurnOutcome) : State × Settle :=
  match o with
  | .answered ans _ => s.applyAnswer i ans
  | .busy =>
    let x := s.slot i
    (s.setSlot i { x with busy := x.busy + 1 },
      if Config.busyLimit ≤ x.busy + 1 then .ends .stationBusy else .more)
  | .failed => (s, .ends .noResponse)
  | .unexpected => (s, .ends .protocol)
  | .outOfStep => (s, .ends .outOfStep)
  | .fresh => (s, .ends .stationRestarted)

/-- The exchange of an ended turn is settled by Table 4-5, and the followers pass behind it (R70, R73). -/
def State.settle (s : State) (i : SlotId) (r : Settle) : State :=
  let x := s.slot i
  match x.result, r with
  | some st, _ => (s.endExchange i st).flushFollowers .tooLate
  | none, .ends st => (s.endExchange i st).flushFollowers .tooLate
  | none, .more =>
    if x.cancelBy.isSome then (s.endExchange i .cancelled).flushFollowers .ok
    else
      let t := match x.station with
        | some a => s.reorder a
        | none => s
      t.flushFollowers .tooLate

/-- The store takes the result of an exchange turn: try count, progress, settlement (R70). -/
def State.exchangeTurnEnd (s : State) (i : SlotId) (tries : Nat) (o : TurnOutcome) : State :=
  let t := (s.setSlot i { s.slot i with tries := tries }).applyOutcome i o
  t.1.settle i t.2

/-- The store takes the end of a SAFE turn: one more repeat made (R29, R102). -/
def State.safeTurnEnd (s : State) (i : SlotId) (tries : Nat) : State :=
  let x := s.slot i
  (s.setSlot i { x with tries := tries, blocks := x.blocks + 1 }).settle i
    (if x.blocks + 1 = x.repeats then .ends .ok else .more)

/-- The turn's exchange when SUSPEND_IMMEDIATE abandons it (R71). -/
def State.abandonExchange (s : State) (i : SlotId) : State :=
  let x := s.slot i
  match x.result with
  | some st => (s.endExchange i st).flushFollowers .tooLate
  | none =>
    if x.cancelBy.isSome then
      let t := (s.endExchange i .cancelled).flushFollowers .ok
      match x.station with
      | some a => t.setResync a
      | none => t
    else
      let t := s.setSlot i { x with unknown := true }
      let u := match x.station with
        | some a => t.reorder a
        | none => t
      u.flushFollowers .tooLate

/-- At the end of any turn to a station, exchanges of its list still flagged outcome-unknown lose the flag, and the station is
resynchronised (R189). -/
def State.clearUnknown (s : State) (a : StationId) : State :=
  let flagged := (s.list a).filter fun i => (s.slot i).unknown
  if flagged = [] then s
  else (flagged.foldl (fun t i => t.setSlot i { t.slot i with unknown := false }) s).setResync a

/-! ### Completions of block transfers (R87, R92, R95, R97, R99) -/

/-- A SEND block has been read: a running SEND holds it in RUNNING, and it is discarded otherwise (R90, R93, R110). -/
def State.blockRead (s : State) (i : SlotId) (form : BlockForm) (data : List Byte) : State :=
  let x := s.slot i
  if x.life = .active ∧ s.running = true then s.setSlot i { x with held := some { form := form, data := data } } else s

/-- A SEND block could not be read: a running SEND ends (R92). -/
def State.blockReadFailed (s : State) (i : SlotId) : State :=
  if (s.slot i).life = .active then s.endExchange i .memoryFault else s

/-- Bytes have reached the host buffer and count, whether the exchange runs or has ended (R87): they add to those of a FETCH (R95)
and are all of those of a QUERY (R99). -/
def State.blockWritten (s : State) (i : SlotId) (n : Nat) : State :=
  let x := s.slot i
  s.setSlot i { x with bytes := if x.kind = some .query then n else x.bytes + n }

/-- A block write failed: a running FETCH ends, and an ended exchange that was OK or OVERRUN takes MEMORY_FAULT in its
place, a QUERY with no byte moved (R97, R99). -/
def State.blockWriteFailed (s : State) (i : SlotId) : State :=
  let x := s.slot i
  match x.life with
  | .active => s.endExchange i .memoryFault
  | .done =>
    if x.result = some .ok ∨ x.result = some .overrun then
      s.setSlot i { x with result := some .memoryFault, bytes := if x.kind = some .query then 0 else x.bytes }
    else s
  | .free => s

end Sys2Proof.Machine
end

