-- ==== Sys2Proof/Machine/Fetcher.lean ====
section
/-! DEFINITION. The fetcher: choice of a ring, validation at take, take and placing, revalidation of HELD rings (chapter 8). -/

namespace Sys2Proof.Machine

/-! ### Order among rings (R148) -/

/-- The rings after the normal rotation pointer, wrapping from 3 to 0. -/
def rotationOrder (p : Option RingId) : List RingId :=
  match p with
  | none => List.finRange 4
  | some q => (List.finRange 4).filter (fun r => q < r) ++ (List.finRange 4).filter (fun r => r ≤ q)

/-- URGENT rings by number, then NORMAL rings after the rotation pointer. -/
def State.ringOrder (s : State) : List RingId :=
  (List.finRange 4).filter (fun r => (s.ring r).prio == .urgent)
    ++ (rotationOrder s.fetch.rotation).filter fun r => (s.ring r).prio == .normal

/-- A ring the fetcher may read from (R147). -/
def Ring.eligible (x : Ring) : Bool :=
  x.enabled && x.head != x.tail && !x.held && !x.faulted && x.staged.isNone

/-- The ring the fetcher chooses for a read (R148). -/
def State.chosenRing (s : State) : Option RingId := s.ringOrder.find? fun r => (s.ring r).eligible

/-! ### Validation (Table 8-4) -/

/-- One window grants the direction and contains the whole buffer (R153). -/
def Window.covers (w : Window) (k : ExKind) (buf len : Nat) : Bool :=
  (if k == .send then w.genRead else w.genWrite) && w.base ≤ buf && buf + len ≤ w.base + w.length

def State.windowGrants (s : State) (k : ExKind) (buf len : Nat) : Bool :=
  s.fetch.windows.any fun w => w.covers k buf len

/-- Step 7: the status with which a station's state refuses a kind (Table 8-8). -/
def StState.refuses : StState → ExKind → Option Status
  | .up, _ => none
  | .joining, _ => none
  | .down, k => match k with
    | .send | .fetch | .query | .clear => some .stationDown
    | _ => none
  | .fenced, k => match k with
    | .send | .fetch | .query | .probe | .clear | .fence => some .stationFenced
    | _ => none
  | .vacant, k => match k with
    | .stationSet | .cancel => none
    | _ => some .stationVacant

/-- Steps 5 to 7 for a kind that uses the station field. DESIGN CHOICE (notes/assumptions/35.md): step 5 reads supervisory-only of a
VACANT station too. -/
def State.stationRefusal (s : State) (general : Bool) (k : ExKind) (e : Entry) (a : StationId) : Option Status :=
  if general && (s.stn a).superOnly then some .stationProtected
  else if general && k.hasBuffer && !s.windowGrants k e.buf e.len then some .windowFault
  else (s.stn a).state.refuses k

/-- Steps 1 to 7: the status of the first check that fails. DESIGN CHOICE (notes/assumptions/31.md): a CANCEL from a GENERAL ring whose
target ring field names no ring fails step 2, since it does not name its own ring. -/
def State.refusal (s : State) (r : RingId) (e : Entry) : Option Status :=
  let general := (s.ring r).cls == .general
  match ExKind.ofCode e.kind with
  | none => some .invalidKind
  | some k =>
    if general && (k.supervisory || (k == .cancel && e.arg != r.val)) then some .notPermitted
    else if k.usesStation then
      match stationOfAddr e.station with
      | none => some .badStation
      | some a => if !e.rangesOk k then some .badLength else s.stationRefusal general k e a
    else if !e.rangesOk k then some .badLength
    else none

/-! ### Step 8 (R64, R154) -/

/-- A STATION_SET that takes its station to VACANT. -/
def State.vacates (s : State) (e : Entry) (a : StationId) : Bool := e.present != 1 && (s.stn a).state != .vacant

/-- Whether the placing of Table 4-4 needs a slot. -/
def State.needsSlot (s : State) (k : ExKind) (e : Entry) : Bool :=
  match k with
  | .send | .fetch | .query | .probe | .clear | .safe | .barrier => true
  | .cancel => match ringOfNat e.arg with
    | some r => match s.cancelTarget r e.targetTag with
      | some i => s.turnSlot == some i && (s.slot i).cancelBy.isNone
      | none => false
    | none => false
  | .fence => match stationOfAddr e.station with
    | some a => (s.turnSlotOf a).isSome
    | none => false
  | .stationSet => match stationOfAddr e.station with
    | some a => s.vacates e a && (s.turnSlotOf a).isSome
    | none => false
  | .unfence => false

/-- Room in the station's list, for a kind that joins one (R65). -/
def State.hasRoom (s : State) (k : ExKind) (e : Entry) : Bool :=
  !k.usesLine || match stationOfAddr e.station with
    | some a => (s.list a).length < (s.stn a).depth
    | none => false

def State.resources (s : State) (k : ExKind) (e : Entry) : Bool :=
  (!s.needsSlot k e || s.freeSlot.isSome) && s.hasRoom k e

/-! ### Take (R156) -/

/-- The ring's share of a take: the next take number and the head advance, the staged copy goes, HELD clears. -/
def Ring.advance (x : Ring) : Ring :=
  { x with nextTake := x.nextTake + 1, head := (x.head + 1) % x.size, staged := none, held := false }

def State.advance (s : State) (r : RingId) : State := s.setRing r (s.ring r).advance

/-- The slot of a taken entry (Table 4-1). -/
def newSlot (k : ExKind) (e : Entry) (r : RingId) (take : Word) (urgent : Bool) (order : Nat) : Slot :=
  { Slot.reset with
    life := .active, tag := e.tag, ring := r, take := take, kind := some k,
    station := if k.usesStation then stationOfAddr e.station else none,
    buf := k.ofBuffer e.buf, len := k.ofBuffer e.len, urgent := urgent,
    targetTag := if k == .cancel then e.targetTag else 0,
    targetRing := if k == .cancel then (ringOfNat e.arg).getD 0 else 0,
    repeats := k.ofSafe e.arg,
    fields := if k == .stationSet then some e.setFields else none, order := order }

/-- Fill a slot and count it in the order of take. -/
def State.fill (s : State) (i : SlotId) (x : Slot) : State :=
  let t := s.setSlot i x
  { t with store := { t.store with nextOrder := t.store.nextOrder + 1 } }

/-- A slotless result joins the post list (R64). -/
def State.slotless (s : State) (r : RingId) (e : Entry) (take : Word) (st : Status) : State :=
  s.addPost (.slotless { ring := r, tag := e.tag, take := take, station := e.station, status := st })

def State.addFollower (s : State) (i : SlotId) : State :=
  { s with store := { s.store with followers := s.store.followers ++ [i] } }

/-- A CANCEL at its take, with the slot for a follower (R77 to R79). DESIGN CHOICE (notes/assumptions/40.md): the departure of a barrier
head may let the next BARRIER of the ring end in this event, with take numbers that an edited image put out of order; that BARRIER is
then posted ahead of the CANCEL's OK. -/
def State.takeCancel (s : State) (r : RingId) (e : Entry) (take : Word) (j : SlotId) (x : Slot) : State :=
  match s.cancelTarget x.targetRing x.targetTag with
  | none => s.slotless r e take .notFound
  | some i =>
    let y := s.slot i
    if s.turnSlot = some i then
      if y.cancelBy.isSome then s.slotless r e take .tooLate
      else ((s.setSlot i { y with cancelBy := some j }).fill j x).addFollower j
    else
      let t := s.endExchange i .cancelled
      let u := match y.unknown, y.station with
        | true, some a => t.setResync a
        | _, _ => t
      let v := if y.kind = some .barrier then u.testBarrier y.ring else u
      v.slotless r e take .ok

/-- An entry that has passed all steps is placed and acts (R64, Table 4-4). `j` is the slot it would fill. -/
def State.place (s : State) (r : RingId) (k : ExKind) (e : Entry) (take : Word) (j : SlotId) : State :=
  let x := newSlot k e r take ((s.ring r).prio == .urgent) s.store.nextOrder
  match k with
  | .send | .fetch | .query | .probe | .clear => match x.station with
    | some a => (s.fill j x).joinList a j
    | none => s
  | .safe =>
    let t := s.fill j x
    { t with store := { t.store with safeList := t.store.safeList ++ [j] } }
  | .barrier =>
    let t := (s.fill j x).setBarrier r (s.barrier r ++ [j])
    if s.barrier r = [] then t.testBarrier r else t
  | .cancel => s.takeCancel r e take j x
  | .fence => match x.station with
    | some a =>
      if (s.turnSlotOf a).isSome then ((s.fill j { x with result := some .ok }).addFollower j).fence a
      else (s.fence a).slotless r e take .ok
    | none => s
  | .stationSet => match x.station with
    | some a =>
      if s.vacates e a && (s.turnSlotOf a).isSome then
        ((s.fill j { x with result := some .ok }).addFollower j).stationSet a e.setFields
      else (s.stationSet a e.setFields).slotless r e take .ok
    | none => s
  | .unfence => match x.station with
    | some a =>
      let t := s.unfence a
      t.1.slotless r e take t.2
    | none => s

/-- Validation of a ring's staged entry: a take, refused or placed, or HELD (R149, R154, R156). -/
def State.validate (s : State) (r : RingId) : State :=
  let x := s.ring r
  match x.staged with
  | none => s
  | some bs =>
    let e := Entry.ofBytes bs
    match s.refusal r e, ExKind.ofCode e.kind with
    | some st, _ => (s.advance r).slotless r e x.nextTake st
    | none, some k =>
      if s.resources k e then (s.advance r).place r k e x.nextTake (s.freeSlot.getD 0)
      else s.setRing r { x with held := true }
    | none, none => s

/-! ### Revalidation (R155) -/

/-- An exchange has left a station's list between two states. -/
def departed (s t : State) (a : StationId) : Bool := (s.list a).any fun i => i ∉ t.list a

/-- A slot has become FREE between two states. -/
def slotFreed (s t : State) : Bool :=
  (List.finRange 64).any fun i => (s.slot i).life != .free && (t.slot i).life == .free

/-- The station a staged entry names, if its kind uses the station field. -/
def Ring.namedStation (x : Ring) : Option StationId :=
  match x.staged with
  | some bs =>
    let e := Entry.ofBytes bs
    match ExKind.ofCode e.kind with
    | some k => if k.usesStation then stationOfAddr e.station else none
    | none => none
  | none => none

/-- The event that led from `s` to `t` is one at which a HELD ring is validated again (R155). -/
def reaches (s t : State) (turnEnd : Bool) (r : RingId) : Bool :=
  (t.ring r).held && (turnEnd || slotFreed s t || match (t.ring r).namedStation with
    | some a => departed s t a || (s.stn a).depth < (t.stn a).depth
    | none => false)

/-- The HELD rings that an event reaches. -/
def reachedRings (s t : State) (turnEnd : Bool) : List RingId := (List.finRange 4).filter (reaches s t turnEnd)

/-- Rings are validated one after another in the order of R148; a take among them is an event of its own and may reach further
HELD rings. The block reads that a take makes due start at that take, ahead of the next validation (R90). `fuel` bounds the validations: at most four takes, and the rings each event reaches. -/
def State.validateRings : Nat → State → List RingId → State
  | 0, s, _ => s
  | fuel + 1, s, work =>
    match s.ringOrder.find? fun r => r ∈ work with
    | none => s
    | some r =>
      let t := (s.validate r).startReads
      t.validateRings fuel (work.erase r ++ (reachedRings s t false).filter fun q => q ∉ work.erase r)

/-- Validations that one event can lead to, at most (four takes, each reaching three other rings). -/
def validationFuel : Nat := 24

/-- What follows an event that led from `s` to `t`, within the same step: the block reads that it makes due (R90), then the
revalidation of the HELD rings it reaches (R155). Both are made in RUNNING alone. DESIGN CHOICE (notes/assumptions/29.md): a turn's end is
one event, so a SEND that its first step makes HEAD and its second step purges starts no read, and one that it leaves HEAD forms its
block with the offered size that the second step stored. -/
def aftermath (s t : State) (turnEnd : Bool) : State :=
  if t.running then t.startReads.validateRings validationFuel (reachedRings s t turnEnd) else t

end Sys2Proof.Machine
end

