-- ==== Sys2Proof/Machine/ExecBlocks.lean ====
section
/-! DEFINITION. The completions of block transfers (R87, R90, R92, R95, R97, R99). -/

namespace Sys2Proof.Machine

/-- A transfer has completed: in HALTED and RESETTING its result reaches no block (R198, R199); elsewhere `f` applies it, and what
falls due follows. -/
def State.transferDone (s : State) (i : SlotId) (f : State → State) : State :=
  let t := s.setXfer i none
  if s.deaf then t else aftermath t (f t) false

def execBlockReadDone (i : SlotId) (data : List Byte) (s : State) : Reply :=
  match s.xfer i with
  | some (.read form _) =>
    if data.length = form.size then .next (s.transferDone i fun t => t.blockRead i form data) else .fault .wrongLength
  | some (.write _ _) => .fault .noSuchTransaction
  | none => .fault .noSuchTransaction

def execBlockReadFault (i : SlotId) (s : State) : Reply :=
  match s.xfer i with
  | some (.read _ _) => .next (s.transferDone i fun t => t.blockReadFailed i)
  | some (.write _ _) => .fault .noSuchTransaction
  | none => .fault .noSuchTransaction

def execBlockWriteDone (i : SlotId) (s : State) : Reply :=
  match s.xfer i with
  | some (.write _ data) => .next (s.transferDone i fun t => t.blockWritten i data.length)
  | some (.read _ _) => .fault .noSuchTransaction
  | none => .fault .noSuchTransaction

def execBlockWriteFault (i : SlotId) (s : State) : Reply :=
  match s.xfer i with
  | some (.write _ _) => .next (s.transferDone i fun t => t.blockWriteFailed i)
  | some (.read _ _) => .fault .noSuchTransaction
  | none => .fault .noSuchTransaction

end Sys2Proof.Machine
end

