-- ==== Sys2Proof/Machine/Configure.lean ====
section
/-! DEFINITION. The configuration record: its fields, their checks in the order of Table 11-3, and the load (chapter 11). -/

namespace Sys2Proof.Machine

/-! ### Fields (Table 12-5) -/

def cfgSchedule (bs : List Byte) (k : Nat) : Nat := byteAt bs (16 + k)
def cfgRing (bs : List Byte) (n off len : Nat) : Nat := fieldAt bs (104 + 16 * n + off) len
def cfgWindow (bs : List Byte) (w off len : Nat) : Nat := fieldAt bs (168 + 16 * w + off) len
def cfgStation (bs : List Byte) (a k : Nat) : Nat := byteAt bs (424 + 8 * a + k)

/-- The nine completion ring sizes and the eight submission ring sizes (Table 9-1, Table 8-1). -/
def cqSizes : List Nat := [16, 32, 64, 128, 256, 512, 1024, 2048, 4096]
def sqSizes : List Nat := [8, 16, 32, 64, 128, 256, 512, 1024]

/-! ### Checks (Table 11-3): each with its field number, in ascending order of the numbers (R195) -/

abbrev FieldCheck := Nat × Bool

def lineChecks (bs : List Byte) : List FieldCheck :=
  let b := byteAt bs
  [(1, b 0 ≤ 7), (2, 1 ≤ b 1 && b 1 ≤ 16), (3, 4 ≤ b 2 && b 2 ≤ 64), (4, 16 ≤ fieldAt bs 4 2 && fieldAt bs 4 2 ≤ 4096),
   (5, 1 ≤ b 3 && b 3 ≤ 8), (6, true), (7, true), (8, 1 ≤ b 8 && b 8 ≤ 40), (9, b 8 ≤ b 9 && b 9 ≤ 40),
   (10, 1 ≤ b 10 && b 10 ≤ 64)]

def scheduleChecks (bs : List Byte) : List FieldCheck :=
  (List.range 64).map fun k =>
    (11 + k, byteAt bs 10 ≤ k || (1 ≤ cfgSchedule bs k && cfgSchedule bs k ≤ 40))

def baseChecks (bs : List Byte) : List FieldCheck :=
  [(75, fieldAt bs 80 8 % 4096 == 0), (76, fieldAt bs 88 8 % 64 == 0),
   (77, cqSizes.contains (fieldAt bs 96 2) && fieldAt bs 88 8 + 64 * fieldAt bs 96 2 ≤ Config.hostSpace)]

def ringChecks (bs : List Byte) (n : Nat) : List FieldCheck :=
  let f := cfgRing bs n
  let off := f 0 1 != 1
  [(78 + 5 * n, f 0 1 ≤ 1), (79 + 5 * n, off || f 8 8 % 64 == 0),
   (80 + 5 * n, off || (sqSizes.contains (f 4 2) && f 8 8 + 32 * f 4 2 ≤ Config.hostSpace)),
   (81 + 5 * n, off || f 1 1 ≤ 1), (82 + 5 * n, off || f 2 1 ≤ 1)]

def windowCountCheck (bs : List Byte) : List FieldCheck := [(98, byteAt bs 11 ≤ 16)]

def windowChecks (bs : List Byte) (w : Nat) : List FieldCheck :=
  let f := cfgWindow bs w
  let off := byteAt bs 11 ≤ w
  [(99 + 4 * w, off || f 0 8 % 4096 == 0),
   (100 + 4 * w, off || (f 8 4 % 4096 == 0 && 4096 ≤ f 8 4 && f 8 4 ≤ 1073741824 && f 0 8 + f 8 4 ≤ Config.hostSpace)),
   (101 + 4 * w, off || f 12 1 ≤ 1), (102 + 4 * w, off || f 13 1 ≤ 1)]

def stationChecks (bs : List Byte) (a : Nat) : List FieldCheck :=
  let f := cfgStation bs a
  let n := 163 + 8 * a
  let off := f 0 != 1
  [(n, f 0 ≤ 1), (n + 1, off || (4 ≤ f 1 && f 1 ≤ 255)), (n + 2, off || f 2 ≤ 7), (n + 3, off || (1 ≤ f 3 && f 3 ≤ 15)),
   (n + 4, off || (1 ≤ f 4 && f 4 ≤ 16)), (n + 5, off || (8 ≤ f 5 && f 5 ≤ 120)), (n + 6, off || f 6 ≤ 1), (n + 7, off || f 7 ≤ 1)]

/-- Every check of the record. -/
def configChecks (bs : List Byte) : List FieldCheck :=
  lineChecks bs ++ scheduleChecks bs ++ baseChecks bs ++ (List.range 4).flatMap (ringChecks bs)
    ++ windowCountCheck bs ++ (List.range 16).flatMap (windowChecks bs) ++ (List.range 40).flatMap (stationChecks bs)

/-- The number of the first field that fails (R195). -/
def configFailure (bs : List Byte) : Option Nat := ((configChecks bs).find? fun c => !c.2).map Prod.fst

/-! ### Load (R196) -/

/-- The first `byteAt bs 10` schedule entries. -/
def cfgScheduleList (bs : List Byte) : List StationId :=
  (List.range (byteAt bs 10)).filterMap fun k => stationOfAddr (cfgSchedule bs k)

/-- A ring's descriptor; that of a disabled ring is not loaded (R143, R195). -/
def cfgRingLoad (bs : List Byte) (r : RingId) : Ring :=
  let f := cfgRing bs r.val
  if f 0 1 = 1 then
    { Ring.reset with
      enabled := true, base := f 8 8, size := f 4 2,
      cls := if f 1 1 = 1 then .supervisory else .general, prio := if f 2 1 = 1 then .urgent else .normal }
  else Ring.reset

def cfgWindowLoad (bs : List Byte) (w : Nat) : Window :=
  let f := cfgWindow bs w
  { base := f 0 8, length := f 8 4, genRead := f 12 1 == 1, genWrite := f 13 1 == 1 }

/-- A station's entry after START: a present one JOINING, an absent one as at power-on (R196, Table 3-2). -/
def cfgStationLoad (bs : List Byte) (a : StationId) : Station :=
  let f := cfgStation bs a.val
  if f 0 = 1 then
    { Station.reset with
      present := true, timeout := f 1, retryLimit := f 2, downLimit := f 3, depth := f 4, targetDepth := f 4,
      blockSize := f 5, attnEnabled := f 6 == 1, superOnly := f 7 == 1, state := .joining }
  else Station.reset

/-- Every block loaded in one event, the controller in RUNNING (R196). The link engine is IDLE and nothing is in flight (R22,
Tables 8-2 and 9-1). -/
def State.load (s : State) (bs : List Byte) : State :=
  let b := byteAt bs
  let t := { s with
    line := { rate := b 0, guardTime := b 1, attnWindow := b 2, holdOffTime := fieldAt bs 4 2 }
    stations := Vector.ofFn (cfgStationLoad bs)
    link := Link.reset
    store := Store.reset
    arb := { Arbiter.reset with
      schedule := cfgScheduleList bs, ratio := b 3, probeInterval := b 6, attnInterval := b 7 }
    res := { Resolver.reset with lo := b 8, hi := b 9 }
    fetch := { rings := Vector.ofFn (cfgRingLoad bs), rotation := none, windows := (List.range (b 11)).map (cfgWindowLoad bs) }
    post := { Poster.reset with base := fieldAt bs 88 8, size := fieldAt bs 96 2 }
    susp := { SuspendUnit.reset with imageBase := fieldAt bs 80 8 }
    port := Port.reset }
  (t.setCtrl .running).lineUsed

end Sys2Proof.Machine
end

