-- ==== Sys2Proof/Machine/Flags.lean ====
section
/-! DEFINITION. Interrupt causes, the interrupt output, and what each register of the window reads (chapters 9 and 11). -/

namespace Sys2Proof.Machine

/-- The CQ cause: a level, present while a record is unconsumed (R171). -/
def State.cqCause (s : State) : Bool := 0 < s.post.unconsumed

/-- IRQ_CAUSE as it reads: bit 0 CQ, 1 SUSPENDED, 2 RESUMED, 3 HALTED, 4 INDEX (Table 12-12). -/
def State.irqCause (s : State) : BitVec 5 :=
  BitVec.ofNat 5 (flagNat s.cqCause + 2 * flagNat s.irq.suspended + 4 * flagNat s.irq.resumed + 8 * flagNat s.irq.halted
    + 16 * flagNat s.irq.index)

/-- The interrupt output is asserted while at least one cause is present and enabled (R171). -/
def State.irqOutput (s : State) : Bool := s.irqCause &&& s.irq.enable != 0

/-- The sticky INDEX error is set (R145, R169). -/
def State.setIndex (s : State) : State := { s with irq := { s.irq with index := true } }

/-- The characters that transmit data carries: those of the frame being sent while driver-enable is asserted, else none (R2). -/
def State.txdChars (s : State) : List Byte :=
  match s.link.turn with
  | some t => if s.link.driverEnable then t.image.chars else []
  | none => []

/-- The levels of transmit data, bit time by bit time, back to back (R1, R7). Transmit data is at mark after the last of them. -/
def State.txd (s : State) : List Bool := s.txdChars.flatMap charBits

/-- The bit rate of the line in bit/s, for a rate code loaded at START (R1, Table 1-1). -/
def State.bitRate (s : State) : Option Nat := lineRates[s.line.rate]?

/-- The registers of the window, word by word (Table 12-12). -/
inductive Reg where
  | ident | command | state | irqCause | irqEnable | configLo | configHi | cqHead | cqTail
  | sqTail (r : RingId)
  | sqHead0 | sqHead1 | sqHead23
  deriving DecidableEq, Repr

/-- The byte offset of a register (Table 11-5). -/
def Reg.offset : Reg → Nat
  | .ident => 0x00 | .command => 0x04 | .state => 0x08 | .irqCause => 0x0C | .irqEnable => 0x10 | .configLo => 0x14
  | .configHi => 0x18 | .cqHead => 0x1C | .cqTail => 0x20 | .sqTail r => 0x24 + 4 * r.val
  | .sqHead0 => 0x34 | .sqHead1 => 0x38 | .sqHead23 => 0x3C

/-- What a register reads; bits that no field takes read 0 (R200, R201, R204). -/
def State.readReg (s : State) : Reg → Word
  | .ident => Config.identWord
  | .command => 0
  | .state => BitVec.ofNat 32 (s.ctrl.state.code + 2 ^ 4 * s.ctrl.lastResult.code + 2 ^ 8 * s.ctrl.faultCode.code
      + 2 ^ 15 * flagNat s.irq.index + 2 ^ 16 * (s.ctrl.faultDetail % 2 ^ 9))
  | .irqCause => s.irqCause.setWidth 32
  | .irqEnable => s.irq.enable.setWidth 32
  | .configLo => s.ctrl.configLo
  | .configHi => s.ctrl.configHi
  | .cqHead => BitVec.ofNat 32 (s.post.head % 2 ^ 12)
  | .cqTail => BitVec.ofNat 32 (s.post.tail % 2 ^ 12 + 2 ^ 31 * flagNat s.post.phase)
  | .sqTail r => BitVec.ofNat 32 ((s.ring r).tail % 2 ^ 10)
  | .sqHead0 => BitVec.ofNat 32 ((s.ring 0).head % 2 ^ 10)
  | .sqHead1 => BitVec.ofNat 32 ((s.ring 1).head % 2 ^ 10)
  | .sqHead23 => BitVec.ofNat 32 ((s.ring 2).head % 2 ^ 10 + 2 ^ 16 * ((s.ring 3).head % 2 ^ 10))

/-- The configuration address held in CONFIG_LO and CONFIG_HI (R193). -/
def State.configAddress (s : State) : Nat := s.ctrl.configLo.toNat + 2 ^ 32 * s.ctrl.configHi.toNat

end Sys2Proof.Machine
end

