-- ==== Sys2Proof/Machine/Attention.lean ====
section
/-! DEFINITION. The attention resolver: the search stack, the results of CALL steps and confirm POLLs (chapter 7), and the end of a
poll cycle, which starts a search (R115, R130). -/

namespace Sys2Proof.Machine

/-- A push: onto a stack of 7 ranges or fewer; a ninth range is discarded (R129). -/
def pushRange (st : List SearchRange) (r : SearchRange) : List SearchRange :=
  if st.length < Config.stackDepth then r :: st else st

/-- The push of a part of a range, unless it is empty (R134). -/
def pushPart (st : List SearchRange) (lo hi : Nat) : List SearchRange :=
  if lo ≤ hi then pushRange st { lo := lo, hi := hi, second := false } else st

def State.setStack (s : State) (st : List SearchRange) : State := { s with res := { s.res with stack := st } }

/-- A search is active while a range, a latch or a step is there (R127). -/
def Resolver.active (r : Resolver) : Bool := r.stack != [] || r.latched.isSome || r.step != .none

/-- The resolver gives its reservation back, if it holds one. -/
def State.returnReservation (s : State) : State :=
  if s.res.reserved then { s.returnUnsol with res := { s.res with reserved := false } } else s

/-- The latch is dropped and its reservation returned (R137). -/
def State.dropLatch (s : State) : State :=
  let t := s.returnReservation
  { t with res := { t.res with latched := none } }

/-- The step in progress is over. -/
def State.stepOver (s : State) : State := { s with res := { s.res with step := .none } }

/-- The split of a garbled range of two or more addresses; the lower half is called first (R132). -/
def splitRange (st : List SearchRange) (r : SearchRange) : List SearchRange :=
  let mid := (r.lo + r.hi) / 2
  pushRange (pushRange st { lo := mid + 1, hi := r.hi, second := false }) { lo := r.lo, hi := mid, second := false }

/-- The stack after a GARBLED CALL step over `r` (R132, R133). -/
def garbledStack (st : List SearchRange) (r : SearchRange) : List SearchRange :=
  if r.lo < r.hi then splitRange st r
  else if r.second then st
  else pushRange st { r with second := true }

/-- The remainder of a range without the latched address; the lower part is called first (R134). -/
def remainderStack (st : List SearchRange) (r : SearchRange) (n : Nat) : List SearchRange :=
  pushPart (pushPart st (n + 1) r.hi) r.lo (n - 1)

/-- An ATTN from `a`: a latch when the station is UP and attention-enabled, a stray otherwise; then the remainder is pushed
(R134, R136). -/
def State.attnFrom (s : State) (r : SearchRange) (a : StationId) : State :=
  let x := s.stn a
  let t :=
    if x.state = .up ∧ x.attnEnabled = true then { s with res := { s.res with latched := some a } }
    else { s.returnReservation with post := { s.returnReservation.post with stray := s.post.stray.set a.val true } }
  t.setStack (remainderStack t.res.stack r a.addr)

/-- The result of a CALL step over `r` (R132 to R134). -/
def State.callResult (s : State) (r : SearchRange) (c : CallResult) : State :=
  match c with
  | .silent => s.returnReservation.stepOver
  | .garbled => (s.returnReservation.setStack (garbledStack s.res.stack r)).stepOver
  | .attn a => (s.attnFrom r a).stepOver

/-- The end of a confirm POLL: a REPORT is queued under the held reservation, every other outcome returns it; the latch is gone
(R138). -/
def State.confirmEnd (s : State) (a : StationId) (o : TurnOutcome) : State :=
  let t := match o with
    | .answered (.report p) _ =>
      let q := s.queueReport { station := a, payload := p, source := .attention }
      { q with res := { q.res with reserved := false } }
    | _ => s.returnReservation
  { t with res := { t.res with latched := none, step := .none } }

/-- The end of a poll turn (R124). -/
def State.pollEnd (s : State) (a : StationId) (o : TurnOutcome) : State :=
  match o with
  | .answered (.report p) _ => s.queueReport { station := a, payload := p, source := .poll }
  | _ => s.returnUnsol

/-- The resolver gives up everything it holds: suspension and LINE_RESET (R141, R142). -/
def State.clearResolver (s : State) : State :=
  let t := s.dropLatch
  { t with res := { t.res with stack := [], step := .none } }

/-- The end of a poll cycle: the counter rises, recovery may fall due, an attention cycle may start (R115, R130). -/
def State.cycleEnd (s : State) : State :=
  let c := s.arb.cycle + 1
  let due := s.arb.probeInterval != 0 && c.toNat % s.arb.probeInterval == 0
  let start := s.arb.attnInterval != 0 && c.toNat % s.arb.attnInterval == 0 && !s.res.active
  let t := { s with arb := { s.arb with cycle := c, recoveryDue := s.arb.recoveryDue || due } }
  if start then t.setStack (pushRange t.res.stack { lo := s.res.lo, hi := s.res.hi, second := false }) else t

end Sys2Proof.Machine
end

