-- ==== Sys2Proof/Machine/Link.lean ====
section
/-! DEFINITION. The link engine: the beginning of a turn, its tries, its end and its abandonment (chapter 2). -/

namespace Sys2Proof.Machine

/-! ### The beginning of a turn (R24) -/

/-- The engine takes a turn request: the turn record is made and the first try's frame starts. -/
def State.beginTurn (s : State) (p : Purpose) (k : MKind) (im : Image) (limit : Option Nat) (allowed : Nat) : State :=
  { s with link := { s.link with
      phase := .sending, turn := some { purpose := p, kind := k, image := im, startLimit := limit, allowed := allowed, tries := 1 },
      phaseLeft := im.time, late := false, rx := [], driverEnable := true } }

/-- A turn to one station: M, T and the retry limit are read once (R24); a recovery probe has one try (Table 2-2). -/
def State.beginStationTurn (s : State) (p : Purpose) (k : MKind) (a : StationId) (last : Bool) (payload : List Byte) : State :=
  let x := s.stn a
  let im := Image.make a.addr k (k.sequenced && x.m) last payload
  let allowed := match p with
    | .recovery _ => 1
    | _ => x.retryLimit + 1
  s.beginTurn p k im (some x.timeout) allowed

/-- The store's share of a turn's beginning (R69). -/
def State.slotInTurn (s : State) (i : SlotId) : State :=
  s.setSlot i { s.slot i with tries := 1, unknown := false, begun := true }

/-- The frame kind of an exchange kind (R85). -/
def ExKind.frame : ExKind → MKind
  | .send => .write | .fetch => .read | .query => .poll | .probe => .probe | .clear => .clear | _ => .safe

/-- The exchange turn of a list head; a WRITE carries the held block and its LAST bit (R85). -/
def State.beginExchangeTurn (s : State) (a : StationId) (i : SlotId) : State :=
  let x := s.slot i
  let k := (x.kind.map ExKind.frame).getD .safe
  let t := match k, x.held with
    | .write, some h => s.beginStationTurn (.exchange i a) k a h.form.last h.data
    | _, _ => s.beginStationTurn (.exchange i a) k a false []
  t.slotInTurn i

/-- A SAFE turn: one frame to address 0 (R29). -/
def State.beginSafeTurn (s : State) (i : SlotId) : State :=
  (s.beginTurn (.safe i) .safe (Image.make 0 .safe false false []) none 1).slotInTurn i

/-! ### The end of a turn (R38) -/

/-- The end of a turn to one station: store, station table, arbiter or resolver, then the flags of R189. -/
def State.endStationTurn (s : State) (t : Turn) (a : StationId) (o : TurnOutcome) : State :=
  let s0 := s.linkIdle
  let s1 := match t.purpose with
    | .exchange i _ => s0.exchangeTurnEnd i t.tries o
    | _ => s0
  let s2 := s1.stationOutcome a t.kind t.image.m o
  let s3 := match t.purpose with
    | .poll _ => s2.pollEnd a o
    | .confirm _ => s2.confirmEnd a o
    | _ => s2
  s3.clearUnknown a

/-- The station a turn addresses (R22). -/
def Purpose.station : Purpose → Option StationId
  | .exchange _ a => some a
  | .poll a => some a
  | .linkClear a => some a
  | .recovery a => some a
  | .confirm a => some a
  | .safe _ => none
  | .call _ _ => none

/-- An exchange turn's end reaches HELD rings (R155). -/
def Purpose.isExchange : Purpose → Bool
  | .exchange _ _ => true
  | .safe _ => true
  | _ => false

/-- The range of the CALL step in progress, with its mark. -/
def State.callRange (s : State) (lo hi : Nat) : SearchRange :=
  match s.res.step with
  | .call r => r
  | _ => { lo := lo, hi := hi, second := false }

/-- A try ended SILENT or GARBLED, a wrong address included: a CALL step ends, another turn is retried while tries remain and
fails after the last (R25, R28, R32). -/
def State.tryFailed (s : State) (t : Turn) (c : CallResult) : State :=
  match t.purpose with
  | .call lo hi => s.linkIdle.callResult (s.callRange lo hi) c
  | p =>
    if t.tries < t.allowed then { s with link := { s.link with phase := .retryGuard, phaseLeft := 0, late := false, rx := [] } }
    else match p.station with
      | some a => s.endStationTurn t a .failed
      | none => s.linkIdle

/-- A FRAME is judged for the turn (R26, R28). -/
def State.frameJudged (s : State) (t : Turn) (f : RxFrame) : State :=
  match t.purpose with
  | .call lo hi => s.linkIdle.callResult (s.callRange lo hi) (judgeCall lo hi f)
  | p => match p.station with
    | some a => match judge t.kind a t.image.m f with
      | some o => s.endStationTurn t a o
      | none => s.tryFailed t .garbled
    | none => s

/-- The next try of the same frame (R25, R69). -/
def State.nextTry (s : State) (t : Turn) : State :=
  let u := { t with tries := t.tries + 1 }
  let s' := { s with link := { s.link with
      phase := .sending, turn := some u, phaseLeft := t.image.time, late := false, rx := [], driverEnable := true } }
  match t.purpose with
  | .exchange i _ => s'.setSlot i { s'.slot i with tries := u.tries }
  | _ => s'

/-! ### Abandonment by SUSPEND_IMMEDIATE (R39, R141) -/

/-- The turn is abandoned on the line (R15), and each block takes what R39 leaves it. DESIGN CHOICE (notes/assumptions/38.md): an
abandoned turn has no report, so it clears no flag of the station's other exchanges (R189). -/
def State.abandonTurn (s : State) : State :=
  match s.link.turn with
  | none => s
  | some t =>
    let s' := s.linkIdle.lineUsed
    match t.purpose with
    | .exchange i _ => s'.abandonExchange i
    | .safe i => s'.abandonExchange i
    | .poll a => s'.returnUnsol.setResync a
    | .linkClear _ => s'
    | .recovery _ => s'
    | .call _ _ => s'.returnReservation.stepOver
    | .confirm a => (s'.dropLatch.stepOver).setResync a

end Sys2Proof.Machine
end

