-- ==== Sys2Proof/Machine/ExecCommands.lean ====
section
/-! DEFINITION. Power-on and the COMMAND writes: START, the suspend commands, RESUME, LINE_RESET, FULL_RESET (chapters 10 and 11). -/

namespace Sys2Proof.Machine

/-! ### Deciding a command (R192) -/

/-- A refused command sets the last command result and nothing else. -/
def State.refuse (s : State) : State := s.setResult .refused

/-- An accepted command sets the last command result; its action follows in the same event. -/
def State.accept (s : State) : State := s.setResult .accepted

/-- Every block at its power-on values (R191, R199); the commands that wait are no part of the 4160. -/
def State.powerOn (s : State) : State := { State.reset with pending := s.pending }

/-- Power-on, or RST_N (R191). -/
def execPowerOn (s : State) : Reply := .next s.powerOn

/-! ### START (R193) -/

/-- The configuration address is checked, and the read of the record starts. -/
def State.startConfig (s : State) : State :=
  if s.configAddress % 64 = 0 then
    { s.setCtrl .configuring with port := { s.port with config := some s.configAddress } }
  else s.halt .configBad 0

def execStart (s : State) : Reply :=
  if s.ctrl.state = .off then .next s.accept.startConfig else .next s.refuse

/-! ### Suspend commands and RESUME (R175, R182) -/

/-- A suspend command is accepted in RUNNING with an image area assigned (R175). -/
def State.suspendable (s : State) : Bool := s.running && s.susp.imageBase != 0

/-- Held blocks are discarded, but for that of the turn in progress (R93, R176). -/
def State.discardBlocks (s : State) : State :=
  let keep := s.turnSlot
  let drop := fun i : SlotId => if keep = some i then s.slot i else { s.slot i with held := none }
  { s with store := { s.store with slots := Vector.ofFn drop } }

/-- The SUSPENDING sequence begins with its quiet part. -/
def State.beginSuspend (s : State) (m : SuspMode) : State := (s.setCtrl .suspending).setSeq (.suspending m .quiet)

def execSuspendGraceful (s : State) : Reply :=
  if s.suspendable then .next (s.accept.beginSuspend .graceful).discardBlocks else .next s.refuse

def execSuspendImmediate (s : State) : Reply :=
  if s.suspendable then .next (s.accept.beginSuspend .immediate).abandonTurn.discardBlocks else .next s.refuse

/-- The RESUMING sequence begins with the read of the header at IMAGE_BASE. -/
def State.beginResume (s : State) : State :=
  let t := (s.setCtrl .resuming).setSeq (.resuming none)
  { t with port := { t.port with image := some (.headerRead t.susp.imageBase) } }

def execResume (s : State) : Reply :=
  if s.ctrl.state = .suspended then .next s.accept.beginResume else .next s.refuse

/-! ### LINE_RESET (R197) -/

/-- Every exchange that is not DONE, in the order in which LINE_RESET ends them (R84). -/
def State.resetOrder (s : State) : List SlotId :=
  let rest := s.store.safeList ++ (List.finRange 40).flatMap s.list ++ (List.finRange 4).flatMap s.barrier
  s.turnSlot.toList ++ s.store.followers ++ rest.filter fun i => s.turnSlot != some i

/-- All of them end LINE_RESET, and every list but the post list is empty. Depths stay as they are (R61). -/
def State.resetStore (s : State) : State :=
  let t := s.resetOrder.foldl (fun t i => t.finish i .lineReset) s
  { t with store := { t.store with
      lists := Vector.replicate 40 [], safeList := [], barriers := Vector.replicate 4 [], followers := [] } }

/-- The poll turn in progress gives its reservation back (R40); the resolver's own are returned by `clearResolver`. -/
def State.resetPoll (s : State) : State :=
  match s.link.turn with
  | some t => match t.purpose with
    | .poll _ => s.returnUnsol
    | _ => s
  | none => s

/-- The fetcher's share: staged entries and their credits are returned, HELD and FAULTED cleared, the rotation pointer none, and
a read outstanding is discarded when it completes (R159). -/
def State.resetFetcher (s : State) : State :=
  let n := ((List.finRange 4).filter fun r => (s.ring r).staged.isSome).length
  let t := s.returnEx n
  { t with
    fetch := { t.fetch with
      rings := Vector.ofFn fun r => { s.ring r with staged := none, held := false, faulted := false }
      rotation := none }
    port := { t.port with entry := t.port.entry.map fun e => { e with discard := true } } }

/-- A station's link fields after LINE_RESET (R61). -/
def Station.lineReset (x : Station) : Station :=
  let y := { x with m := false, failures := 0, resync := false, holdOff := none }
  match x.state with
  | .down | .joining | .up => { y with state := .joining, notice := some .lineReset }
  | .fenced | .vacant => y

/-- The arbiter's items after LINE_RESET (Table 6-1). -/
def Arbiter.lineReset (x : Arbiter) : Arbiter :=
  { Arbiter.reset with schedule := x.schedule, ratio := x.ratio, probeInterval := x.probeInterval, attnInterval := x.attnInterval }

/-- The whole LINE_RESET, in one event. -/
def State.lineResetAll (s : State) : State :=
  let t := s.resetStore.resetPoll.clearResolver.resetFetcher
  ({ t with
    stations := Vector.ofFn fun a => (t.stn a).lineReset
    arb := t.arb.lineReset
    susp := { t.susp with seq := .none, saved := 0 } }).linkIdle.lineUsed

def execLineReset (s : State) : Reply :=
  if s.running then .next s.accept.lineResetAll else .next s.refuse

/-! ### FULL_RESET (R199) -/

/-- Entry into RESETTING: the line released, the turn abandoned, any sequence ended. -/
def State.beginReset (s : State) : State := ((s.releaseLine.linkIdle).setCtrl .resetting).setSeq .none

def execFullReset (s : State) : Reply :=
  if s.ctrl.state = .resetting then .next s else .next s.accept.beginReset

/-- No host-memory transaction is in flight. -/
def Port.quiet (p : Port) : Bool :=
  p.config.isNone && p.entry.isNone && (List.finRange 64).all (fun i => p.xfer[i.val].isNone) && p.record.isNone
    && p.image.isNone

/-- The end of RESETTING: every block at its power-on values, the controller in OFF (R199). -/
def execResetComplete (s : State) : Reply :=
  if s.ctrl.state = .resetting ∧ s.port.quiet = true then .next s.powerOn else .fault .notStartable

/-! ### A COMMAND write by its code (R192, R204, Table 12-11) -/

/-- A write of COMMAND: the whole word is the code, and one that names no command is refused. -/
def State.commandWrite (s : State) (code : Word) : Reply :=
  match commandOf code with
  | .start => execStart s
  | .suspendGraceful => execSuspendGraceful s
  | .suspendImmediate => execSuspendImmediate s
  | .resume => execResume s
  | .lineReset => execLineReset s
  | .fullReset => execFullReset s
  | _ => .next s.refuse

/-- UNKNOWN_COMMAND carries the word written; a word that names a command is that command (notes/assumptions/27.md). -/
def execUnknownCommand (code : Word) (s : State) : Reply := s.commandWrite code

end Sys2Proof.Machine
end

