-- ==== Sys2Proof/Machine/ExecConfigure.lean ====
section
/-! DEFINITION. The completion of the configuration reads (R194 to R196). -/

namespace Sys2Proof.Machine

/-- The configuration read is no longer in flight. -/
def State.dropConfig (s : State) : State := { s with port := { s.port with config := none } }

/-- The record is validated, then loaded. -/
def State.applyConfig (s : State) (data : List Byte) : State :=
  match configFailure data with
  | some n => s.halt .configBad n
  | none => s.load data

def execConfigReadDone (data : List Byte) (s : State) : Reply :=
  if s.port.config.isNone then .fault .noSuchTransaction
  else if data.length ≠ Config.configBytes then .fault .wrongLength
  else if s.deaf then .next s.dropConfig
  else .next (s.dropConfig.applyConfig data)

def execConfigReadFault (s : State) : Reply :=
  if s.port.config.isNone then .fault .noSuchTransaction
  else if s.deaf then .next s.dropConfig
  else .next (s.dropConfig.halt .configRead 0)

end Sys2Proof.Machine
end

