-- ==== Sys2Proof/Machine/Arbiter.lean ====
section
/-! DEFINITION. The line arbiter: settling the poll cursor, the candidates in their order, and the turn each gives (chapter 6). -/

namespace Sys2Proof.Machine

/-! ### The poll cursor (R114, R115) -/

/-- The station of the schedule entry at the cursor. -/
def Arbiter.cursorStation (x : Arbiter) : Option StationId := x.schedule[x.cursor]?

def State.cursorUp (s : State) : Bool :=
  match s.arb.cursorStation with
  | some a => (s.stn a).state == .up
  | none => false

/-- The cursor moves to the next entry; from the last to the first is a wrap, which ends the poll cycle (R115). -/
def State.advanceCursor (s : State) : State :=
  if s.arb.cursor + 1 < s.arb.schedule.length then { s with arb := { s.arb with cursor := s.arb.cursor + 1 } }
  else ({ s with arb := { s.arb with cursor := 0 } }).cycleEnd

/-- The walk over at most `n` entries to an UP entry; without one the empty-cycle timer starts (R114). -/
def State.walkCursor : Nat → State → State
  | 0, s => { s with arb := { s.arb with emptyTimer := some Config.emptyCycleCt } }
  | n + 1, s => if s.cursorUp then s else s.advanceCursor.walkCursor n

/-- Settling: not while the empty-cycle timer runs (R114). -/
def State.settleCursor (s : State) : State :=
  if s.arb.emptyTimer.isSome then s else s.walkCursor s.arb.schedule.length

/-- A poll is due: the cursor is settled at an UP entry and an unsolicited credit is free (R114, R163). -/
def State.pollDue (s : State) : Bool := s.arb.emptyTimer.isNone && s.cursorUp && s.post.unsolFree

/-- The DOWN station a recovery probe would go to (R125). -/
def State.downStation (s : State) : Option StationId := firstStation s.arb.recPtr fun a => (s.stn a).state == .down

/-- A recovery probe is due (R125). -/
def State.probeDue (s : State) : Bool := s.arb.recoveryDue && s.downStation.isSome

/-! ### Eligible heads (R85, R119, Table 6-3) -/

/-- Readiness of a head (R85). -/
def State.ready (s : State) (i : SlotId) : Bool :=
  let x := s.slot i
  match x.kind with
  | some .send => x.held.isSome
  | some .fetch => (s.xfer i).isNone
  | _ => true

/-- The head of a station's list, if it is eligible for an exchange turn. -/
def State.eligibleHead (s : State) (a : StationId) : Option SlotId :=
  let x := s.stn a
  match s.list a with
  | [] => none
  | i :: _ =>
    if (x.state = .up ∨ x.state = .down ∧ (s.slot i).kind = some .probe) ∧ x.resync = false ∧ x.holdOff = none
        ∧ s.ready i = true then some i else none

/-- The eligible head of a station, if it is urgent, with its stamp of the order of take. -/
def State.urgentHead (s : State) (a : StationId) : Option (StationId × SlotId) :=
  match s.eligibleHead a with
  | some i => if s.isUrgent i then some (a, i) else none
  | none => none

/-- The urgent eligible head that was taken earliest (R120). -/
def State.earliestUrgent (s : State) : Option (StationId × SlotId) :=
  ((List.finRange 40).filterMap s.urgentHead).foldl (fun best c => match best with
    | none => some c
    | some b => if (s.slot c.2).order < (s.slot b.2).order then some c else some b) none

/-- The eligible head of a station, if it is normal (R122). -/
def State.normalHead (s : State) (a : StationId) : Option SlotId :=
  match s.eligibleHead a with
  | some i => if s.isUrgent i then none else some i
  | none => none

/-! ### Candidate 2: link repair (R118) -/

/-- A station that a join or resync CLEAR is due to. -/
def Station.needsClear (x : Station) : Bool := x.state == .joining || (x.state == .up && x.resync)

def State.repairStation (s : State) : Option StationId := firstStation s.arb.joinPtr fun a => (s.stn a).needsClear

def State.beginClear (s : State) (a : StationId) : State :=
  ({ s with arb := { s.arb with joinPtr := a.addr } }).beginStationTurn (.linkClear a) .clear a false []

/-! ### Candidate 4: the attention step (R121, R137, R139) -/

inductive AttnOffer where
  | nothing
  | confirm (a : StationId)
  | call (r : SearchRange)
  deriving DecidableEq, Repr

/-- A CALL step is offered for the top range; without an unsolicited credit the search is abandoned (R139). -/
def State.offerCall (s : State) : State × AttnOffer :=
  match s.res.stack with
  | [] => (s, .nothing)
  | r :: _ => if s.post.unsolFree then (s, .call r) else (s.setStack [], .nothing)

/-- What the resolver presents at a choice that reaches candidate 4; a latch whose station is DOWN, FENCED or VACANT is dropped
(R137). -/
def State.offerAttention (s : State) : State × AttnOffer :=
  match s.res.latched with
  | some a => match (s.stn a).state with
    | .up => if (s.stn a).resync then (s, .nothing) else (s, .confirm a)
    | .joining => (s, .nothing)
    | .down => s.dropLatch.offerCall
    | .fenced => s.dropLatch.offerCall
    | .vacant => s.dropLatch.offerCall
  | none => s.offerCall

/-- A CALL step begins: its range is popped and a credit reserved (R131). -/
def State.beginCall (s : State) (r : SearchRange) : State :=
  let t := s.reserveUnsol
  ({ t with res := { t.res with stack := t.res.stack.tail, reserved := true, step := .call r } }).beginTurn
    (.call r.lo r.hi) .call (Image.make 0 .call false false [BitVec.ofNat 8 r.lo, BitVec.ofNat 8 r.hi])
    (some s.line.attnWindow) 1

/-- A confirm POLL begins under the held reservation (R138). -/
def State.beginConfirm (s : State) (a : StationId) : State :=
  ({ s with res := { s.res with step := .confirm } }).beginStationTurn (.confirm a) .poll a false []

/-! ### Candidates 5 and 6 (R122 to R125) -/

def State.setWorkCount (s : State) (n : Nat) : State := { s with arb := { s.arb with workCount := n } }

/-- A normal work turn; the count rises while a probe or a poll is due (R123). -/
def State.beginWork (s : State) (a : StationId) (i : SlotId) : State :=
  let n := if s.probeDue || s.pollDue then s.arb.workCount + 1 else s.arb.workCount
  ({ s with arb := { s.arb with workPtr := a.addr, workCount := n } }).beginExchangeTurn a i

/-- A recovery probe (R125). -/
def State.beginProbe (s : State) (a : StationId) : State :=
  ({ s with arb := { s.arb with recPtr := a.addr, recoveryDue := false, workCount := 0 } }).beginStationTurn
    (.recovery a) .probe a false []

/-- A poll turn: a credit reserved, the cursor moved, the count set to 0 (R124). -/
def State.beginPoll (s : State) (a : StationId) : State :=
  (s.reserveUnsol.setWorkCount 0).advanceCursor.beginStationTurn (.poll a) .poll a false []

/-- Candidate 6: the recovery probe, then the poll (R124, R125). -/
def State.probeOrPoll (s : State) : State :=
  match s.arb.recoveryDue, s.downStation with
  | true, some a => s.beginProbe a
  | _, _ => match s.pollDue, s.arb.cursorStation with
    | true, some a => ({ s with arb := { s.arb with recoveryDue := false } }).beginPoll a
    | _, _ => s

/-- Candidates 5 and 6, 6 ahead of 5 when the count equals W and a probe or a poll is due (R116). -/
def State.workOrPoll (s : State) : State :=
  let due := s.probeDue || s.pollDue
  if due && s.arb.workCount == s.arb.ratio then s.probeOrPoll
  else match firstStation s.arb.workPtr (fun a => (s.normalHead a).isSome) with
    | some a => match s.normalHead a with
      | some i => s.beginWork a i
      | none => s
    | none => if due then s.probeOrPoll else s

/-- Candidates 4 to 6. DESIGN CHOICE (notes/assumptions/37.md): a credit that candidate 4 returns with a dropped latch counts when the
same choice asks whether a poll is due. -/
def State.attentionOrWork (s : State) : State :=
  match s.offerAttention with
  | (t, .confirm a) => t.beginConfirm a
  | (t, .call r) => t.beginCall r
  | (t, .nothing) => t.workOrPoll

/-- One choice over the candidates of Table 6-2, the cursor settled (R116). -/
def State.choose (s : State) : State :=
  match s.store.safeList with
  | i :: _ => s.beginSafeTurn i
  | [] => match s.repairStation with
    | some a => s.beginClear a
    | none => match s.earliestUrgent with
      | some c => (s.setWorkCount 0).beginExchangeTurn c.1 c.2
      | none => s.attentionOrWork

end Sys2Proof.Machine
end

