-- ==== Sys2Proof/Machine/ExecLine.lean ====
section
/-! DEFINITION. The events of the line and its timers, and the arbiter's choice (chapters 1, 2, 3 and 6). An event passes the line
time up to the moment it names (notes/assumptions/3.md). -/

namespace Sys2Proof.Machine

/-! ### The choice and the timers -/

/-- A choice of the arbiter, once the guard has elapsed (R113, R114, R116). DESIGN CHOICE (notes/assumptions/30.md): a search that
settling the cursor starts is offered at candidate 4 of this same choice. -/
def execArbiterChoice (s : State) : Reply :=
  if s.running = true ∧ s.link.phase = .idle then .next (s.elapse s.link.guardLeft).settleCursor.choose
  else .fault .noSuchLineEvent

/-- The timer has run out: the cursor is settled afresh where a choice can be made now, else at the next choice (R114). -/
def State.emptyCycleOver (s : State) : State :=
  let t := { s with arb := { s.arb with emptyTimer := none } }
  if t.link.phase = .idle ∧ t.link.guardLeft = 0 then t.settleCursor else t

def execEmptyCycleTimerExpiry (s : State) : Reply :=
  match s.running, s.arb.emptyTimer with
  | true, some n => .next (s.elapse n).emptyCycleOver
  | _, _ => .fault .noSuchLineEvent

/-- The hold-off timer of a station expires and stops (R52). -/
def execHoldOffExpiry (a : StationId) (s : State) : Reply :=
  match s.running, (s.stn a).holdOff with
  | true, some n => .next ((s.elapse n).setStn a { (s.elapse n).stn a with holdOff := none })
  | _, _ => .fault .noSuchLineEvent

/-! ### The turn in progress -/

/-- The link engine works: in RUNNING, and in SUSPENDING for the turn in progress (R2). -/
def State.lineLive (s : State) : Bool := s.running || s.ctrl.state == .suspending

/-- The turn in progress, if the engine works and is in this phase. -/
def State.turnIn (s : State) (p : LinkPhase) : Option Turn :=
  if s.lineLive = true ∧ s.link.phase = p then s.link.turn else none

/-- The end of a listen period or of a SAFE frame led from `s` to `t`: what follows in the same step, with an exchange turn's end as
an event of R155 if the turn is over. -/
def afterTurn (s t : State) (turn : Turn) : State := aftermath s t (turn.purpose.isExchange && t.link.turn.isNone)

/-- The end of a master frame (R7, R11, R29). -/
def State.frameEnd (s : State) (turn : Turn) : State :=
  match turn.purpose with
  | .safe i => afterTurn s (s.lineUsed.linkIdle.safeTurnEnd i turn.tries) turn
  | _ => { s with link := { s.link with
      phase := .listening, phaseLeft := turn.startLimit.getD 0, late := false, rx := [], driverEnable := false } }

def execMasterFrameEnd (s : State) : Reply :=
  match s.turnIn .sending with
  | some turn => .next ((s.elapse s.link.phaseLeft).frameEnd turn)
  | none => .fault .noSuchLineEvent

/-- A listen period ends with no FRAME (R25). -/
def State.listenFailed (s : State) (turn : Turn) (c : CallResult) : State := afterTurn s (s.lineUsed.tryFailed turn c) turn

/-- The start limit passes before any character (R11). -/
def execStartLimitExpiry (s : State) : Reply :=
  match s.turnIn .listening with
  | some turn =>
    if s.link.rx = [] then .next ((s.elapse s.link.phaseLeft).listenFailed turn .silent) else .fault .noSuchLineEvent
  | none => .fault .noSuchLineEvent

/-- The gap limit passes inside a frame (R12). -/
def execGapLimitExpiry (s : State) : Reply :=
  match s.turnIn .listening with
  | some turn =>
    if s.link.rx = [] then .fault .noSuchLineEvent else .next ((s.elapse s.link.phaseLeft).listenFailed turn .garbled)
  | none => .fault .noSuchLineEvent

/-- The turn in whose listen period a character may arrive now. Once the start limit or the gap limit has been exceeded, the
period ends at that limit's own event and takes no further character (R11, R12). -/
def State.hearing (s : State) : Option Turn := if s.link.late then none else s.turnIn .listening

/-- The listen period ends FRAME, and the frame is judged (R14, R26). -/
def State.listenFrame (s : State) (turn : Turn) (chars : List Byte) : State :=
  afterTurn s (s.lineUsed.frameJudged turn (RxFrame.ofChars chars)) turn

/-- The last character of a correct station frame (R14). -/
def execFrameReceived (c : Byte) (s : State) : Reply :=
  match s.hearing with
  | some turn =>
    if rxProgress (s.link.rx ++ [c]) = .frame then .next ((s.elapse 1).listenFrame turn (s.link.rx ++ [c]))
    else .fault .noSuchLineEvent
  | none => .fault .noSuchLineEvent

/-- A character makes the reception faulty, by its stop bit or by its value (R14). -/
def State.faulty (s : State) (why : RxFault) : Bool :=
  match why with
  | .framingError => true
  | .character c => rxProgress (s.link.rx ++ [c]) == .garbled

def execGarbledReception (why : RxFault) (s : State) : Reply :=
  match s.hearing with
  | some turn => if s.faulty why then .next ((s.elapse 1).listenFailed turn .garbled) else .fault .noSuchLineEvent
  | none => .fault .noSuchLineEvent

/-- A faultless character that is not the last: the start limit stops or the gap limit starts again (R12, R14). -/
def State.hear (s : State) (c : Byte) : State :=
  { s with link := { s.link with rx := s.link.rx ++ [c], phaseLeft := Config.gapLimit, late := false } }

def execStationCharacterReceived (c : Byte) (s : State) : Reply :=
  match s.hearing with
  | some _ =>
    if rxProgress (s.link.rx ++ [c]) = .incomplete then .next ((s.elapse 1).hear c) else .fault .noSuchLineEvent
  | none => .fault .noSuchLineEvent

/-- The receiver is enabled (R2): with driver-enable released, in RUNNING, or in SUSPENDING with a turn in progress. -/
def State.receiving (s : State) : Bool :=
  s.link.phase != .sending && (s.running || (s.ctrl.state == .suspending && s.link.turn.isSome))

/-- A character outside a listen period is discarded; where the receiver is enabled it counts as line use (R2, R13). -/
def execLineActivity (s : State) : Reply :=
  if (s.turnIn .listening).isSome then .fault .noSuchLineEvent
  else if s.receiving then .next (s.elapse 1).lineUsed
  else .next s

/-- The event that ten sampled bits are on the line of this state: a character of a listen period by what it makes of the frame in
reception, any other character as line activity, and noise none (R1, R13, R14). -/
def State.lineEvent (s : State) (levels : List Bool) : Option Instr :=
  match sampleChar levels, s.turnIn .listening with
  | .noise, _ => none
  | _, none => some .lineActivity
  | .framingError, some _ => some (.garbledReception .framingError)
  | .character c, some _ => match rxProgress (s.link.rx ++ [c]) with
    | .incomplete => some (.stationCharacterReceived c)
    | .garbled => some (.garbledReception (.character c))
    | .frame => some (.frameReceived c)

/-- The guard between two tries has elapsed (R25). -/
def execRetryGuardElapsed (s : State) : Reply :=
  match s.turnIn .retryGuard with
  | some turn => .next ((s.elapse s.link.guardLeft).nextTry turn)
  | none => .fault .noSuchLineEvent

end Sys2Proof.Machine
end

