-- ==== Sys2Proof/Machine/Poster.lean ====
section
/-! DEFINITION. The completion poster: the contents of records and the choice of the next one (chapter 9, Table 12-4). -/

namespace Sys2Proof.Machine

/-! ### Record contents (64 bytes) -/

/-- Byte 0 of a record: kind in bits 3:0, phase in bit 7 (12.4). -/
def recordByte (kind : Nat) (phase : Bool) : Byte := BitVec.ofNat 8 (kind + 128 * flagNat phase)

/-- One byte of a record. -/
def b1 (n : Nat) : List Byte := [BitVec.ofNat 8 n]

/-- The bytes-moved count of a record, by kind (R111). -/
def Slot.bytesCount (x : Slot) : Nat :=
  match x.kind with
  | some .send | some .fetch | some .query => x.bytes
  | _ => 0

/-- The blocks count of a record, by kind; for a SAFE the repeats made (R111). -/
def Slot.blocksCount (x : Slot) : Nat :=
  match x.kind with
  | some .send | some .fetch | some .safe => x.blocks
  | _ => 0

/-- The IDENT fields of a record: those of a PROBE that ended OK, else zeros (R165). -/
def Slot.identFields (x : Slot) : Ident :=
  match x.kind, x.result, x.ident with
  | some .probe, some .ok, some d => d
  | _, _, _ => { type := 0, version := 0, size := 0 }

/-- The outcome-unknown flag of a record (R165). -/
def Slot.unknownFlag (x : Slot) : Bool := x.unknown && (x.result == some .dropped || x.result == some .imageInvalid)

/-- The layout of an EXCHANGE record (Table 12-4). -/
def exchangeBytes (phase : Bool) (ring status station : Nat) (tag : Word) (bytes blocks sqHead : Nat) (unknown : Bool)
    (d : Ident) : List Byte :=
  recordByte 1 phase :: b1 ring ++ b1 status ++ b1 station ++ leBytes 4 tag.toNat ++ leBytes 2 bytes ++ leBytes 2 blocks
    ++ leBytes 2 sqHead ++ b1 (flagNat unknown) ++ b1 0 ++ leBytes 2 d.type.toNat ++ [d.version] ++ b1 d.size ++ zeros 44

/-- The EXCHANGE record of a post-list entry (R165). -/
def State.exchangeRecord (s : State) (e : PostEntry) : List Byte :=
  match e with
  | .slot i =>
    let x := s.slot i
    exchangeBytes s.post.phase x.ring.val ((x.result.map Status.code).getD 0) ((x.station.map StationId.addr).getD 0) x.tag
      x.bytesCount x.blocksCount (s.ring x.ring).head x.unknownFlag x.identFields
  | .slotless q =>
    exchangeBytes s.post.phase q.ring.val q.status.code q.station q.tag 0 0 (s.ring q.ring).head false
      { type := 0, version := 0, size := 0 }

/-- A REPORT record (R166). -/
def State.reportRecord (s : State) (r : Report) : List Byte :=
  recordByte 2 s.post.phase :: b1 r.source.code ++ b1 0 ++ b1 r.station.addr ++ b1 r.payload.length ++ zeros 3
    ++ r.payload ++ zeros (56 - r.payload.length)

/-- A NOTICE record: the station's state now and its last cause (R167). -/
def State.noticeRecord (s : State) (a : StationId) (c : NoticeCause) : List Byte :=
  recordByte 3 s.post.phase :: zeros 2 ++ b1 a.addr ++ b1 (s.stn a).state.code ++ b1 c.code ++ zeros 58

/-- A CONTROLLER record: event code, then ring or address (R168). -/
def State.eventRecord (s : State) (code n : Nat) : List Byte :=
  recordByte 4 s.post.phase :: b1 code ++ zeros 2 ++ b1 n ++ zeros 59

/-! ### The choice of the next record (R164) -/

/-- Host address of the record position at the tail (R161). -/
def Poster.tailAddr (p : Poster) : Nat := p.base + 64 * p.tail

/-- The write of a chosen record starts. -/
def State.startRecord (s : State) (src : RecSource) (data : List Byte) : State :=
  { s with port := { s.port with record := some { source := src, addr := s.post.tailAddr, data := data } } }

/-- A post-list entry is ready unless a block transfer of its slot is outstanding (R164). -/
def State.postReady (s : State) : PostEntry → Bool
  | .slot i => (s.xfer i).isNone
  | .slotless _ => true

/-- The station whose notice is written next, in ascending address order (R167). -/
def State.nextNotice (s : State) : Option StationId := (List.finRange 40).find? fun a => (s.stn a).notice.isSome

/-- The write of a NOTICE or CONTROLLER record takes the write credit (R163). -/
def State.takeWriteCredit (s : State) : State := { s with post := { s.post with writeCredit := s.post.writeCredit + 1 } }

def State.startNotice (s : State) (a : StationId) (c : NoticeCause) : State :=
  ((s.setStn a { s.stn a with notice := none }).takeWriteCredit).startRecord .event (s.noticeRecord a c)

def State.startRingFault (s : State) (r : RingId) : State :=
  ({ s with post := { s.post with ringFault := s.post.ringFault.set r.val false } }).takeWriteCredit.startRecord .event
    (s.eventRecord 1 r.val)

def State.startStray (s : State) (a : StationId) : State :=
  ({ s with post := { s.post with stray := s.post.stray.set a.val false } }).takeWriteCredit.startRecord .event
    (s.eventRecord 2 a.addr)

/-- Sources 3 and 4: a notice, then a controller event, when free is at least 1, in RUNNING (R164). -/
def State.startFlagged (s : State) : Option State :=
  if !s.running || s.post.free < 1 then none
  else match s.nextNotice with
    | some a => (s.stn a).notice.map fun c => s.startNotice a c
    | none => match (List.finRange 4).find? (fun r => s.post.ringFault[r.val]) with
      | some r => some (s.startRingFault r)
      | none => ((List.finRange 40).find? fun a => s.post.stray[a.val]).map s.startStray

/-- Sources 2 to 4. -/
def State.startReportOrFlagged (s : State) : Option State :=
  match s.post.reports with
  | r :: _ => some (s.startRecord .report (s.reportRecord r))
  | [] => s.startFlagged

/-- The record write that starts next, by the order of R164; none when no source applies. -/
def State.startNextRecord (s : State) : Option State :=
  match s.store.postList with
  | e :: _ => if s.postReady e then some (s.startRecord .post (s.exchangeRecord e)) else s.startReportOrFlagged
  | [] => s.startReportOrFlagged

/-! ### A record write succeeds (R161, R162) -/

/-- Tail, phase and unconsumed count move on. -/
def Poster.posted (p : Poster) : Poster :=
  { p with
    tail := (p.tail + 1) % p.size
    phase := if p.tail + 1 = p.size then !p.phase else p.phase
    unconsumed := p.unconsumed + 1 }

/-- The ring whose exchange a post-list entry reports. -/
def State.entryRing (s : State) : PostEntry → RingId
  | .slot i => (s.slot i).ring
  | .slotless q => q.ring

/-- A post-list entry is posted: it leaves the list, its slot becomes FREE, and its ring's barrier head is tested (R81, R76). -/
def State.releasePost (s : State) : State :=
  match s.store.postList with
  | [] => s
  | e :: rest =>
    let t := { s with store := { s.store with postList := rest }, post := { s.post with exCredits := s.post.exCredits - 1 } }
    let u := match e with
      | .slot i => t.setSlot i { t.slot i with life := .free }
      | .slotless _ => t
    u.testBarrier (s.entryRing e)

/-- The source and the credit of a written record are released (R161). -/
def State.releaseSource (s : State) (src : RecSource) : State :=
  match src with
  | .post => s.releasePost
  | .report =>
    { s with post := { s.post with reports := s.post.reports.tail, unsolCredits := s.post.unsolCredits - 1 } }
  | .event => { s with post := { s.post with writeCredit := s.post.writeCredit - 1 } }

/-- A record write has landed. -/
def State.recordPosted (s : State) (src : RecSource) : State :=
  ({ s with post := s.post.posted }).releaseSource src

end Sys2Proof.Machine
end

