-- ==== Sys2Proof/Machine/ExecRecords.lean ====
section
/-! DEFINITION. Record writes: their start and their completions (R161, R164, R172). -/

namespace Sys2Proof.Machine

/-- The controller states in which the poster starts writes (R164). -/
def State.posting (s : State) : Bool :=
  s.running || s.ctrl.state == .suspending || s.ctrl.state == .resuming

def execRecordWriteStart (s : State) : Reply :=
  if s.posting = true ∧ s.port.record = none then
    match s.startNextRecord with
    | some t => .next t
    | none => .fault .notStartable
  else .fault .notStartable

/-- The record write is no longer in progress. -/
def State.dropRecord (s : State) : State := { s with port := { s.port with record := none } }

def execRecordWriteDone (s : State) : Reply :=
  match s.port.record with
  | none => .fault .noSuchTransaction
  | some w =>
    if s.deaf then .next s.dropRecord
    else .next (aftermath s.dropRecord (s.dropRecord.recordPosted w.source) false)

def execRecordWriteFault (s : State) : Reply :=
  match s.port.record with
  | none => .fault .noSuchTransaction
  | some _ => if s.deaf then .next s.dropRecord else .next (s.dropRecord.halt .cqWrite 0)

end Sys2Proof.Machine
end

