-- ==== Sys2Proof/Machine/ExecRegisters.lean ====
section
/-! DEFINITION. The register writes other than COMMAND (chapters 8, 9 and 11). -/

namespace Sys2Proof.Machine

/-! ### CQ_HEAD (R169) -/

/-- An accepted CQ_HEAD write: the head moves to the value, held modulo the ring's size (notes/assumptions/10.md), and `n`
positions become free. -/
def State.handBack (s : State) (value n : Nat) : State :=
  { s with post := { s.post with head := value % s.post.size, unconsumed := s.post.unconsumed - n } }

/-- (value - head) modulo size. -/
def Poster.distance (p : Poster) (value : Nat) : Nat := (value + (p.size - p.head % p.size)) % p.size

/-- The check of R169. -/
def State.checkHead (s : State) (value : Nat) : State :=
  let d := s.post.distance value
  if s.post.unconsumed < s.post.size then
    if d ≤ s.post.unconsumed then s.handBack value d else s.setIndex
  else s.handBack value (if d = 0 then s.post.size else d)

def execCqHeadWrite (v : Word) (s : State) : Reply :=
  match s.ctrl.state with
  | .off => .next s.setIndex
  | .configuring => .next s.setIndex
  | .halted => .next s
  | .resetting => .next s
  | .running => .next (s.checkHead (v.toNat % 2 ^ 12))
  | .suspending => .next (s.checkHead (v.toNat % 2 ^ 12))
  | .suspended => .next (s.checkHead (v.toNat % 2 ^ 12))
  | .resuming => .next (s.checkHead (v.toNat % 2 ^ 12))

/-! ### SQ_TAIL (R145) -/

/-- An entry of the ring is in flight: its read is outstanding or it is staged. -/
def State.inFlight (s : State) (r : RingId) : Bool :=
  (s.ring r).staged.isSome || match s.port.entry with
    | some e => e.ring == r
    | none => false

/-- The checks of R145. -/
def State.tailAccepted (s : State) (r : RingId) (value : Nat) : Bool :=
  (s.ring r).enabled && value < (s.ring r).size && !(value == (s.ring r).head && s.inFlight r)

def execSqTailWrite (r : RingId) (v : Word) (s : State) : Reply :=
  let value := v.toNat % 2 ^ 10
  if s.deaf then .next s
  else if s.tailAccepted r value then .next (s.setRing r { s.ring r with tail := value })
  else .next s.setIndex

/-! ### Interrupt registers (R171, R200) -/

/-- A write of 1 clears a sticky cause. -/
def Interrupt.clear (x : Interrupt) (v : Word) : Interrupt :=
  { x with
    suspended := x.suspended && !v.getLsbD 1, resumed := x.resumed && !v.getLsbD 2,
    halted := x.halted && !v.getLsbD 3, index := x.index && !v.getLsbD 4 }

def execIrqCauseWrite (v : Word) (s : State) : Reply :=
  if s.ctrl.state = .resetting then .next s else .next { s with irq := s.irq.clear v }

def execIrqEnableWrite (v : Word) (s : State) : Reply :=
  if s.ctrl.state = .resetting then .next s else .next { s with irq := { s.irq with enable := v.extractLsb' 0 5 } }

/-! ### CONFIG_LO, CONFIG_HI and the registers whose writes are ignored (R193, R200) -/

def execConfigAddressWrite (half : Half) (v : Word) (s : State) : Reply :=
  if s.ctrl.state = .off then
    match half with
    | .lo => .next { s with ctrl := { s.ctrl with configLo := v } }
    | .hi => .next { s with ctrl := { s.ctrl with configHi := v } }
  else .next s

def execIgnoredRegisterWrite (_reg : ReadOnlyReg) (_v : Word) (s : State) : Reply := .next s

end Sys2Proof.Machine
end

