-- ==== Sys2Proof/Machine/ExecRings.lean ====
section
/-! DEFINITION. Entry reads: their start and their completions (R147 to R149, R157 to R159). -/

namespace Sys2Proof.Machine

/-- A read of the chosen ring's head entry starts under a reserved credit; a NORMAL ring takes the rotation pointer (R147, R148). -/
def State.startEntryRead (s : State) (r : RingId) : State :=
  let x := s.ring r
  let t := s.reserveEx
  { t with
    fetch := { t.fetch with rotation := if x.prio = .normal then some r else t.fetch.rotation }
    port := { t.port with entry := some { ring := r, index := x.head, addr := x.base + 32 * x.head, discard := false } } }

/-- The conditions of R147, but for the choice of a ring. -/
def State.mayReadEntry (s : State) : Bool := s.running && s.port.entry.isNone && 1 ≤ s.post.free

def execEntryReadStart (s : State) : Reply :=
  match s.mayReadEntry, s.chosenRing with
  | true, some r => .next (s.startEntryRead r)
  | _, _ => .fault .notStartable

/-- The entry read is no longer outstanding. -/
def State.dropEntry (s : State) : State := { s with port := { s.port with entry := none } }

/-- The entry is staged, and in RUNNING validated at once (R149, R158). -/
def State.stageEntry (s : State) (r : RingId) (data : List Byte) : State :=
  let t := s.setRing r { s.ring r with staged := some data }
  if t.running then t.validateRings validationFuel [r] else t

def execEntryReadDone (data : List Byte) (s : State) : Reply :=
  match s.port.entry with
  | none => .fault .noSuchTransaction
  | some e =>
    if data.length ≠ 32 then .fault .wrongLength
    else if s.deaf then .next s.dropEntry
    else if e.discard then .next (s.dropEntry.returnEx 1)
    else .next (s.dropEntry.stageEntry e.ring data)

/-- The ring is FAULTED, its credit returned and RING_FAULT flagged (R157). -/
def State.faultRing (s : State) (r : RingId) : State :=
  let t := (s.setRing r { s.ring r with faulted := true }).returnEx 1
  { t with post := { t.post with ringFault := t.post.ringFault.set r.val true } }

def execEntryReadFault (s : State) : Reply :=
  match s.port.entry with
  | none => .fault .noSuchTransaction
  | some e =>
    if s.deaf then .next s.dropEntry
    else if e.discard then .next (s.dropEntry.returnEx 1)
    else .next (s.dropEntry.faultRing e.ring)

end Sys2Proof.Machine
end

