-- ==== Sys2Proof/Machine/Image.lean ====
section
/-! DEFINITION. The suspend image: what the suspend unit writes, what it checks on reading, and the rebuilding of the lists
(chapter 10, 12.6). -/

namespace Sys2Proof.Machine

/-! ### Writing (R178, R179, Tables 12-6 to 12-8) -/

/-- A depth as the four bits of a station record hold it: depth less 1 (notes/assumptions/8.md for a depth of 0). -/
def depthNibble (d : Nat) : Nat := (d + 15) % 16

/-- A station record (Table 12-7). -/
def Station.record (x : Station) : List Byte :=
  b1 x.state.code
    ++ b1 (flagNat x.m + 2 * flagNat x.resync + 4 * flagNat x.holdOff.isSome + 8 * flagNat x.notice.isSome)
    ++ b1 x.failures ++ b1 (x.offered.getD 0) ++ leBytes 2 (x.holdOff.getD 0)
    ++ b1 ((x.notice.map NoticeCause.code).getD 0) ++ b1 (depthNibble x.depth + 16 * depthNibble x.targetDepth)

def State.stationRecords (s : State) : List Byte := (List.finRange 40).flatMap fun a => (s.stn a).record

/-- The frame M of a context: that of its station when the exchange is outcome-unknown, else 0 (R178, notes/assumptions/9.md). -/
def State.frameM (s : State) (x : Slot) : Bool :=
  x.unknown && match x.station with
    | some a => (s.stn a).m
    | none => false

/-- A context (Tables 10-5 and 12-8): the buffer of a kind with one, the repeat count of a SAFE, 0 for the others. -/
def State.context (s : State) (i : SlotId) : List Byte :=
  let x := s.slot i
  let own (f : ExKind → Nat) : Nat := (x.kind.map f).getD 0
  b1 0 ++ b1 ((x.kind.map ExKind.code).getD 0) ++ b1 x.ring.val ++ b1 ((x.station.map StationId.addr).getD 0)
    ++ leBytes 4 x.tag.toNat ++ leBytes 4 x.take.toNat
    ++ b1 (flagNat x.urgent + 2 * flagNat x.begun + 4 * flagNat x.unknown + 8 * flagNat (s.frameM x))
    ++ b1 x.tries ++ b1 x.busy ++ b1 (own fun k => k.ofSafe x.repeats)
    ++ leBytes 8 (own fun k => k.ofBuffer x.buf) ++ leBytes 2 (own fun k => k.ofBuffer x.len) ++ leBytes 2 x.bytes
    ++ leBytes 2 x.blocks ++ zeros 18

/-- The slots of the image in context order (R178). -/
def State.imageSlots (s : State) : List SlotId :=
  s.store.safeList ++ (List.finRange 40).flatMap s.list ++ (List.finRange 4).flatMap s.barrier

/-- The station records and contexts, from offset 64 of the image on (Table 10-2). -/
def State.imageBody (s : State) : List Byte := s.stationRecords ++ s.imageSlots.flatMap s.context

/-- The layout of a header (Table 12-6). -/
def ImageHeader.bytes (h : ImageHeader) : List Byte :=
  leBytes 4 h.magic ++ b1 h.version ++ b1 h.stations ++ leBytes 2 h.contexts
    ++ (List.finRange 4).flatMap (fun r => leBytes 4 (h.takes[r.val]).toNat) ++ leBytes 8 h.nextBase ++ zeros 32

/-- The header written at suspend (Table 10-3). -/
def State.imageHeader (s : State) : ImageHeader :=
  { magic := Config.magicValid, version := 1, stations := 40, contexts := s.imageSlots.length,
    takes := Vector.ofFn fun r => (s.ring r).nextTake, nextBase := s.susp.imageBase }

/-- Every slot in use becomes FREE and every list empty, the credits kept (R180). -/
def State.freeAll (s : State) : State :=
  { s with store := { s.store with
      slots := Vector.ofFn fun i => { s.slot i with life := .free }
      lists := Vector.replicate 40 [], safeList := [], barriers := Vector.replicate 4 [], followers := [], postList := [] } }

/-! ### The header read (R183) -/

def ImageHeader.ofBytes (bs : List Byte) : ImageHeader :=
  { magic := fieldAt bs 0 4, version := byteAt bs 4, stations := byteAt bs 5, contexts := fieldAt bs 6 2,
    takes := Vector.ofFn fun r => BitVec.ofNat 32 (fieldAt bs (8 + 4 * r.val) 4), nextBase := fieldAt bs 24 8 }

/-- The fault of the first header check that fails. -/
def headerFailure (h : ImageHeader) (saved : Nat) : Option FaultCode :=
  if h.magic ≠ Config.magicValid ∨ h.version ≠ 1 ∨ h.stations ≠ 40 ∨ 64 < h.contexts ∨ h.contexts ≠ saved then some .imageBad
  else if h.nextBase = 0 ∨ h.nextBase % 4096 ≠ 0 then some .imageAlign
  else none

/-- The next take numbers of the four rings, from the header. -/
def State.restoreTakes (s : State) (h : ImageHeader) : State :=
  { s with fetch := { s.fetch with rings := Vector.ofFn fun r => { s.ring r with nextTake := h.takes[r.val] } } }

/-! ### Station records (R184, Table 10-6) -/

/-- The bytes of station record `a`. -/
def recordOf (bs : List Byte) (a : StationId) : List Byte := (bs.drop (8 * a.val)).take 8

def recDepth (r : List Byte) : Nat := byteAt r 7 % 16 + 1
def recTarget (r : List Byte) : Nat := byteAt r 7 / 16

/-- Table 10-6, for one station. -/
def Station.recordPasses (x : Station) (r : List Byte) : Bool :=
  let flags := byteAt r 1
  let rem := fieldAt r 4 2
  let off := byteAt r 3
  match StState.ofCode (byteAt r 0) with
  | none => false
  | some st =>
    let live := st == .up || st == .joining
    ((st == .vacant) == !x.present)
    && (if live then byteAt r 2 < 15 else byteAt r 2 ≤ 15)
    && (!bitOf flags 1 || live)
    && (if bitOf flags 2 then st == .up && 1 ≤ rem && rem ≤ 4096 else rem == 0)
    && (off == 0 || (8 ≤ off && off ≤ 120 && st != .vacant))
    && (if bitOf flags 3 then (NoticeCause.ofCode (byteAt r 6)).isSome else byteAt r 6 == 0)
    && recTarget r == depthNibble x.targetDepth && x.targetDepth ≤ recDepth r

/-- The first station whose record fails. -/
def State.recordFailure (s : State) (bs : List Byte) : Option StationId :=
  (List.finRange 40).find? fun a => !(s.stn a).recordPasses (recordOf bs a)

/-- The link fields and the depth that a record restores. -/
def Station.restore (x : Station) (r : List Byte) : Station :=
  let flags := byteAt r 1
  { x with
    state := (StState.ofCode (byteAt r 0)).getD x.state
    m := bitOf flags 0, resync := bitOf flags 1
    holdOff := if bitOf flags 2 then some (fieldAt r 4 2) else none
    failures := byteAt r 2
    offered := if byteAt r 3 = 0 then none else some (byteAt r 3)
    notice := if bitOf flags 3 then NoticeCause.ofCode (byteAt r 6) else none
    depth := recDepth r }

def State.restoreStations (s : State) (bs : List Byte) : State :=
  { s with stations := Vector.ofFn fun a => (s.stn a).restore (recordOf bs a) }

/-! ### Contexts (R185, Table 10-7) -/

/-- A context's fields as its bytes give them. -/
structure Context where
  action : Nat
  kind : Nat
  ring : Nat
  station : Nat
  tag : Word
  take : Word
  urgent : Bool
  begun : Bool
  unknown : Bool
  frameM : Bool
  tries : Nat
  busy : Nat
  repeats : Nat
  buf : Nat
  len : Nat
  bytes : Nat
  blocks : Nat
  deriving DecidableEq, Repr

def Context.ofBytes (bs : List Byte) : Context :=
  let flags := byteAt bs 12
  { action := byteAt bs 0, kind := byteAt bs 1, ring := byteAt bs 2, station := byteAt bs 3,
    tag := BitVec.ofNat 32 (fieldAt bs 4 4), take := BitVec.ofNat 32 (fieldAt bs 8 4),
    urgent := bitOf flags 0, begun := bitOf flags 1, unknown := bitOf flags 2, frameM := bitOf flags 3,
    tries := byteAt bs 13, busy := byteAt bs 14, repeats := byteAt bs 15, buf := fieldAt bs 16 8, len := fieldAt bs 24 2,
    bytes := fieldAt bs 26 2, blocks := fieldAt bs 28 2 }

/-- The contexts of the image, `n` of them. -/
def contextsOf (bs : List Byte) (n : Nat) : List Context :=
  (List.range n).map fun k => Context.ofBytes ((bs.drop (48 * k)).take 48)

/-- The place of a context in the grouped order of R178: group, then station or ring. -/
def Context.rank (c : Context) : Nat × Nat :=
  if c.kind = ExKind.safe.code then (0, 0)
  else if c.kind = ExKind.barrier.code then (2, c.ring)
  else (1, c.station)

def rankLe (x y : Nat × Nat) : Bool := x.1 < y.1 || (x.1 == y.1 && x.2 ≤ y.2)

/-- The kinds a context may have (Table 10-5). -/
def Context.exKind (c : Context) : Option ExKind :=
  match ExKind.ofCode c.kind with
  | some k => if k.usesLine || k == .safe || k == .barrier then some k else none
  | none => none

/-- The IMAGE_BAD checks of one context, after the contexts `before` it. DESIGN CHOICE (notes/assumptions/32.md): the contexts that name a
station are counted as they come, so the check fails at the first one that exceeds the depth. -/
def State.contextGood (s : State) (before : List Context) (c : Context) : Bool :=
  match c.exKind, ringOfNat c.ring with
  | some k, some r =>
    (s.ring r).enabled
    && (if k.usesLine then (stationOfAddr c.station).isSome else c.station == 0)
    && (match before.getLast? with
      | some p => rankLe p.rank c.rank
      | none => true)
    && (match stationOfAddr c.station with
      | some a => ((before ++ [c]).filter fun d => d.station == c.station).length ≤ (s.stn a).depth
      | none => true)
  | _, _ => false

/-- The number of the first context that fails an IMAGE_BAD check. -/
def State.contextFailure (s : State) (cs : List Context) : Option Nat :=
  (List.range cs.length).find? fun k => match cs[k]? with
    | some c => !s.contextGood (cs.take k) c
    | none => false

/-- The IMAGE_INVALID checks of one context. -/
def State.contextValid (s : State) (c : Context) (k : ExKind) (r : RingId) : Bool :=
  k.lengthInRange c.len && c.bytes ≤ c.len
  && c.blocks ≤ 512 && c.tries ≤ 8 && c.busy ≤ 15
  && (k != .safe || c.blocks < c.repeats)
  && (c.urgent == ((s.ring r).prio == .urgent))
  && (!((s.ring r).cls == .general && k.hasBuffer) || s.windowGrants k c.buf c.len)
  && c.action ≤ 2

/-! ### Rebuilding (R186, R187, Table 10-8) -/

/-- The slot a context fills: a kind without a buffer has neither buffer nor bytes moved, a kind other than SAFE no repeat count,
whatever an edited context holds there (Table 4-1, R111, notes/assumptions/20.md). -/
def Context.slot (c : Context) (k : ExKind) (r : RingId) (order : Nat) : Slot :=
  { Slot.reset with
    life := .active, tag := c.tag, ring := r, take := c.take, kind := some k,
    station := if k.usesLine then stationOfAddr c.station else none, buf := k.ofBuffer c.buf, len := k.ofBuffer c.len,
    urgent := c.urgent, begun := c.begun, bytes := k.ofBuffer c.bytes, blocks := c.blocks, tries := c.tries, busy := c.busy,
    unknown := c.unknown, repeats := k.ofSafe c.repeats, order := order }

/-- RESYNC on a slot's station, if it has one (subject to R51). -/
def State.resyncSlot (s : State) (x : Slot) : State :=
  match x.station with
  | some a => s.setResync a
  | none => s

/-- A context that ends at rebuilding joins the post list, with RESYNC when it gives up an outcome-unknown frame. -/
def State.endContext (s : State) (i : SlotId) (st : Status) (resync : Bool) : State :=
  let t := s.finish i st
  if resync then t.resyncSlot (s.slot i) else t

/-- A context joins the tail of its list (R186). DESIGN CHOICE (notes/assumptions/41.md): a BARRIER that becomes head is tested as it is
placed, before later BARRIER contexts of its ring are rebuilt. An outcome-unknown one is kept only while the station's M is its frame
M (R187). -/
def State.joinRebuilt (s : State) (i : SlotId) (k : ExKind) (frameM : Bool) : State :=
  let x := s.slot i
  match k, x.station with
  | .safe, _ => { s with store := { s.store with safeList := s.store.safeList ++ [i] } }
  | .barrier, _ =>
    let t := s.setBarrier x.ring (s.barrier x.ring ++ [i])
    if s.barrier x.ring = [] then t.testBarrier x.ring else t
  | _, some a =>
    let t := s.setList a (s.list a ++ [i])
    if x.unknown ∧ (s.stn a).m ≠ frameM then (t.setSlot i { x with unknown := false }).setResync a else t
  | _, none => s

/-- The third row of Table 10-8: the station's state, as restored, does not admit the exchange. -/
def StState.endsRebuilt : StState → ExKind → Option Status
  | .vacant, _ => some .stationVacant
  | .fenced, _ => some .stationFenced
  | .down, k => if k == .probe then none else some .stationDown
  | .joining, _ => none
  | .up, _ => none

/-- RESTART gives up the progress of a SEND or FETCH (Table 10-8). -/
def Slot.restarted (x : Slot) : Slot := { x with bytes := 0, blocks := 0, begun := false, unknown := false }

/-- One context is rebuilt: it takes the lowest FREE slot, then the first row of Table 10-8 that applies. -/
def State.rebuildOne (s : State) (c : Context) : State :=
  match c.exKind, ringOfNat c.ring, s.freeSlot with
  | some k, some r, some i =>
    let x := c.slot k r s.store.nextOrder
    let t := s.fill i x
    let refused := match x.station with
      | some a => (s.stn a).state.endsRebuilt k
      | none => none
    if !s.contextValid c k r then (t.setSlot i { x with bytes := 0, blocks := 0 }).endContext i .imageInvalid x.unknown
    else if c.action = 2 then t.endContext i .dropped x.unknown
    else match refused with
      | some st => t.endContext i st false
      | none =>
        if c.action = 1 ∧ (k = .send ∨ k = .fetch) then
          let u := (t.setSlot i x.restarted).joinRebuilt i k c.frameM
          if x.unknown then u.resyncSlot x else u
        else t.joinRebuilt i k c.frameM
  | _, _, _ => s

/-- A depth above its target is set again: the larger of the target and the list's count (R187). -/
def State.refitDepth (s : State) (a : StationId) : State :=
  let x := s.stn a
  if x.targetDepth < x.depth then s.setStn a { x with depth := max x.targetDepth (s.list a).length } else s

/-- The whole rebuilding (R186, R187). -/
def State.rebuild (s : State) (cs : List Context) : State :=
  (List.finRange 40).foldl State.refitDepth (cs.foldl State.rebuildOne s)

end Sys2Proof.Machine
end

