-- ==== Sys2Proof/Machine/ExecSuspend.lean ====
section
/-! DEFINITION. The steps of the SUSPENDING and RESUMING sequences (chapter 10). -/

namespace Sys2Proof.Machine

/-- The suspend unit's transaction in flight becomes `x`. -/
def State.setImage (s : State) (x : Option ImageTxn) : State := { s with port := { s.port with image := x } }

/-! ### SUSPENDING (R176 to R180) -/

/-- The conditions of R176. -/
def State.quiesced (s : State) : Bool :=
  s.link.turn.isNone && s.port.entry.isNone && (List.finRange 64).all fun i => (s.xfer i).isNone

/-- The first part ends: held blocks and the resolver's search are given up, and the drain begins (R93, R141, R177). -/
def execSuspendQuiesced (s : State) : Reply :=
  match s.ctrl.state, s.susp.seq with
  | .suspending, .suspending m .quiet =>
    if s.quiesced then .next (s.discardBlocks.clearResolver.setSeq (.suspending m .drain)) else .fault .notStartable
  | _, _ => .fault .notStartable

/-- The drain has ended (R177). -/
def State.drained (s : State) : Bool := s.store.postList == [] && s.post.reports == [] && s.port.record.isNone

/-- The writes of the station records and contexts start at offset 64 of the image (R179). -/
def execImageWriteStart (s : State) : Reply :=
  match s.ctrl.state, s.susp.seq with
  | .suspending, .suspending m .drain =>
    if s.drained then .next ((s.setImage (some (.bodyWrite (s.susp.imageBase + 64) s.imageBody))).setSeq (.suspending m .image))
    else .fault .notStartable
  | _, _ => .fault .notStartable

/-- The header write starts (R179). -/
def execImageWriteDone (s : State) : Reply :=
  match s.port.image with
  | some (.bodyWrite _ _) =>
    if s.deaf then .next (s.setImage none)
    else .next (s.setImage (some (.headerWrite s.susp.imageBase s.imageHeader.bytes)))
  | _ => .fault .noSuchTransaction

/-- A write of the image body or of its header failed (R179). -/
def execImageWriteFault (s : State) : Reply :=
  match s.port.image with
  | some (.bodyWrite _ _) => if s.deaf then .next (s.setImage none) else .next ((s.setImage none).halt .imageWrite 0)
  | some (.headerWrite _ _) => if s.deaf then .next (s.setImage none) else .next ((s.setImage none).halt .imageWrite 0)
  | _ => .fault .noSuchTransaction

/-- The entry into SUSPENDED (R179, R180). -/
def State.suspended (s : State) : State :=
  let t := s.freeAll
  { t with
    ctrl := { t.ctrl with state := .suspended }
    susp := { t.susp with seq := .none, saved := s.imageSlots.length }
    irq := { t.irq with suspended := true } }

def execImageHeaderWriteDone (s : State) : Reply :=
  match s.port.image with
  | some (.headerWrite _ _) => if s.deaf then .next (s.setImage none) else .next (s.setImage none).suspended
  | _ => .fault .noSuchTransaction

/-! ### RESUMING (R182 to R188) -/

/-- The header is checked, the take numbers are restored and the read of the station records starts (R183). -/
def State.applyHeader (s : State) (h : ImageHeader) : State :=
  match headerFailure h s.susp.saved with
  | some c => s.halt c 0
  | none => ((s.restoreTakes h).setSeq (.resuming (some h))).setImage (some (.stationsRead (s.susp.imageBase + 64)))

def execHeaderReadDone (data : List Byte) (s : State) : Reply :=
  match s.port.image with
  | some (.headerRead _) =>
    if data.length ≠ 64 then .fault .wrongLength
    else if s.deaf then .next (s.setImage none)
    else .next ((s.setImage none).applyHeader (ImageHeader.ofBytes data))
  | _ => .fault .noSuchTransaction

/-- The context count of the header read. -/
def Sequence.contexts : Sequence → Nat
  | .resuming (some h) => h.contexts
  | _ => 0

/-- The station records are checked, the link fields restored and the read of the contexts starts (R184). -/
def State.applyRecords (s : State) (data : List Byte) : State :=
  match s.recordFailure data with
  | some a => s.halt .imageBad a.addr
  | none => (s.restoreStations data).setImage (some (.contextsRead (s.susp.imageBase + 384) (48 * s.susp.seq.contexts)))

def execStationRecordsReadDone (data : List Byte) (s : State) : Reply :=
  match s.port.image with
  | some (.stationsRead _) =>
    if data.length ≠ 320 then .fault .wrongLength
    else if s.deaf then .next (s.setImage none)
    else .next ((s.setImage none).applyRecords data)
  | _ => .fault .noSuchTransaction

/-- The header written again with magic SPENT (R188). -/
def Sequence.spentBytes : Sequence → List Byte
  | .resuming (some h) => { h with magic := Config.magicSpent }.bytes
  | _ => []

/-- The contexts are checked, the lists rebuilt and the SPENT write starts (R185 to R188). -/
def State.applyContexts (s : State) (data : List Byte) : State :=
  let cs := contextsOf data s.susp.seq.contexts
  match s.contextFailure cs with
  | some k => s.halt .imageBad (64 + k)
  | none => (s.rebuild cs).setImage (some (.spentWrite s.susp.imageBase s.susp.seq.spentBytes))

def execContextsReadDone (data : List Byte) (s : State) : Reply :=
  match s.port.image with
  | some (.contextsRead _ len) =>
    if data.length ≠ len then .fault .wrongLength
    else if s.deaf then .next (s.setImage none)
    else .next ((s.setImage none).applyContexts data)
  | _ => .fault .noSuchTransaction

/-- A read of the image failed (R182). -/
def execImageReadFault (s : State) : Reply :=
  match s.port.image with
  | some (.headerRead _) => if s.deaf then .next (s.setImage none) else .next ((s.setImage none).halt .imageRead 0)
  | some (.stationsRead _) => if s.deaf then .next (s.setImage none) else .next ((s.setImage none).halt .imageRead 0)
  | some (.contextsRead _ _) => if s.deaf then .next (s.setImage none) else .next ((s.setImage none).halt .imageRead 0)
  | _ => .fault .noSuchTransaction

/-- IMAGE_BASE takes next-base, and every item of Table 10-1 is as after a resume (R188). -/
def SuspendUnit.resumed (x : SuspendUnit) : SuspendUnit :=
  match x.seq with
  | .resuming (some h) => { imageBase := h.nextBase, seq := .none, saved := 0 }
  | _ => { x with seq := .none, saved := 0 }

/-- The entry into RUNNING at the end of a resume: block reads start and staged entries are validated (R188, R90, R158). DESIGN CHOICE
(notes/assumptions/33.md): in this order. -/
def State.resumed (s : State) : State :=
  let t := ({ s with susp := s.susp.resumed, irq := { s.irq with resumed := true } }).setCtrl .running |>.lineUsed
  t.startReads.validateRings validationFuel ((List.finRange 4).filter fun r => (t.ring r).staged.isSome)

def execSpentWriteDone (s : State) : Reply :=
  match s.port.image with
  | some (.spentWrite _ _) => if s.deaf then .next (s.setImage none) else .next (s.setImage none).resumed
  | _ => .fault .noSuchTransaction

def execSpentWriteFault (s : State) : Reply :=
  match s.port.image with
  | some (.spentWrite _ _) => if s.deaf then .next (s.setImage none) else .next ((s.setImage none).halt .imageWrite 0)
  | _ => .fault .noSuchTransaction

end Sys2Proof.Machine
end

