-- ==== Sys2Proof/Machine/Dispatch.lean ====
section
/-! DEFINITION. One arm per command: the meaning it has. -/

namespace Sys2Proof.Machine

def exec (i : Instr) (s : State) : Host.Outcome State Fault Refusal :=
  match i with
  | .powerOn => Sys2Proof.Machine.execPowerOn s
  | .start => Sys2Proof.Machine.execStart s
  | .suspendGraceful => Sys2Proof.Machine.execSuspendGraceful s
  | .suspendImmediate => Sys2Proof.Machine.execSuspendImmediate s
  | .resume => Sys2Proof.Machine.execResume s
  | .lineReset => Sys2Proof.Machine.execLineReset s
  | .fullReset => Sys2Proof.Machine.execFullReset s
  | .unknownCommand code => Sys2Proof.Machine.execUnknownCommand code s
  | .cqHeadWrite v => Sys2Proof.Machine.execCqHeadWrite v s
  | .sqTailWrite r v => Sys2Proof.Machine.execSqTailWrite r v s
  | .irqCauseWrite v => Sys2Proof.Machine.execIrqCauseWrite v s
  | .irqEnableWrite v => Sys2Proof.Machine.execIrqEnableWrite v s
  | .configAddressWrite half v => Sys2Proof.Machine.execConfigAddressWrite half v s
  | .ignoredRegisterWrite reg v => Sys2Proof.Machine.execIgnoredRegisterWrite reg v s
  | .configReadDone data => Sys2Proof.Machine.execConfigReadDone data s
  | .configReadFault => Sys2Proof.Machine.execConfigReadFault s
  | .resetComplete => Sys2Proof.Machine.execResetComplete s
  | .arbiterChoice => Sys2Proof.Machine.execArbiterChoice s
  | .emptyCycleTimerExpiry => Sys2Proof.Machine.execEmptyCycleTimerExpiry s
  | .holdOffExpiry a => Sys2Proof.Machine.execHoldOffExpiry a s
  | .masterFrameEnd => Sys2Proof.Machine.execMasterFrameEnd s
  | .startLimitExpiry => Sys2Proof.Machine.execStartLimitExpiry s
  | .gapLimitExpiry => Sys2Proof.Machine.execGapLimitExpiry s
  | .frameReceived c => Sys2Proof.Machine.execFrameReceived c s
  | .garbledReception why => Sys2Proof.Machine.execGarbledReception why s
  | .lineActivity => Sys2Proof.Machine.execLineActivity s
  | .retryGuardElapsed => Sys2Proof.Machine.execRetryGuardElapsed s
  | .blockReadDone slot data => Sys2Proof.Machine.execBlockReadDone slot data s
  | .blockReadFault slot => Sys2Proof.Machine.execBlockReadFault slot s
  | .blockWriteDone slot => Sys2Proof.Machine.execBlockWriteDone slot s
  | .blockWriteFault slot => Sys2Proof.Machine.execBlockWriteFault slot s
  | .entryReadStart => Sys2Proof.Machine.execEntryReadStart s
  | .entryReadDone data => Sys2Proof.Machine.execEntryReadDone data s
  | .entryReadFault => Sys2Proof.Machine.execEntryReadFault s
  | .recordWriteStart => Sys2Proof.Machine.execRecordWriteStart s
  | .recordWriteDone => Sys2Proof.Machine.execRecordWriteDone s
  | .recordWriteFault => Sys2Proof.Machine.execRecordWriteFault s
  | .suspendQuiesced => Sys2Proof.Machine.execSuspendQuiesced s
  | .imageWriteStart => Sys2Proof.Machine.execImageWriteStart s
  | .imageWriteDone => Sys2Proof.Machine.execImageWriteDone s
  | .imageWriteFault => Sys2Proof.Machine.execImageWriteFault s
  | .imageHeaderWriteDone => Sys2Proof.Machine.execImageHeaderWriteDone s
  | .headerReadDone data => Sys2Proof.Machine.execHeaderReadDone data s
  | .stationRecordsReadDone data => Sys2Proof.Machine.execStationRecordsReadDone data s
  | .contextsReadDone data => Sys2Proof.Machine.execContextsReadDone data s
  | .imageReadFault => Sys2Proof.Machine.execImageReadFault s
  | .spentWriteDone => Sys2Proof.Machine.execSpentWriteDone s
  | .spentWriteFault => Sys2Proof.Machine.execSpentWriteFault s
  | .stationCharacterReceived c => Sys2Proof.Machine.execStationCharacterReceived c s

end Sys2Proof.Machine
end

