-- ==== Sys2Proof/Safety.lean ====
section
/-! DEFINITION. What the laws of the manual say of a state, and which commands a law speaks of: the terms of the claims. -/

namespace Sys2Proof.Machine

/-- The law of image alignment (R174): IMAGE_BASE is 0 or a multiple of 4096, and so is a next-base that a resume has read. -/
def State.imageLaw (s : State) : Prop :=
  s.susp.imageBase % 4096 = 0 ∧ ∀ h, s.susp.seq = .resuming (some h) → h.nextBase % 4096 = 0

/-- A range of addresses lies within `lo` to `hi` and is not empty (R128). -/
def SearchRange.within (r : SearchRange) (lo hi : Nat) : Prop := lo ≤ r.lo ∧ r.lo ≤ r.hi ∧ r.hi ≤ hi

/-- The law of the attention stack (R128): at most 8 ranges, each within the configured range; a CALL step in progress is over
such a range, and a configured search range is not empty. -/
def State.attentionLaw (s : State) : Prop :=
  s.res.stack.length ≤ 8 ∧ (∀ r ∈ s.res.stack, r.within s.res.lo s.res.hi) ∧
  (∀ t lo hi, s.link.turn = some t → t.purpose = .call lo hi →
    ∃ r, s.res.step = .call r ∧ r.lo = lo ∧ r.hi = hi ∧ r.within s.res.lo s.res.hi) ∧
  (s.arb.attnInterval ≠ 0 → s.res.lo ≤ s.res.hi)

/-- The controller states in which a turn may be in progress on the line: RUNNING, and the first part of SUSPENDING (R2, R176). -/
def State.onLine (s : State) : Prop :=
  s.ctrl.state = .running ∨ (s.ctrl.state = .suspending ∧ ∃ m, s.susp.seq = .suspending m .quiet)

/-- The controller has stopped all blocks (R198, R199). -/
def State.stopped (s : State) : Prop := s.ctrl.state = .halted ∨ s.ctrl.state = .resetting

/-- Who may use the line and the port when (R2, R40, R164, R172, R176 to R188): a turn exists only on line or frozen in HALTED,
driver-enable is asserted only while a frame is being sent on line, configuration reads belong to CONFIGURING, record writes to RUNNING,
SUSPENDING and RESUMING, image writes to the last part of SUSPENDING, image reads and the SPENT write to RESUMING; HALTED and RESETTING
see the rest of such a transaction. Block transfers belong to RUNNING and SUSPENDING; after the first part of SUSPENDING none is
outstanding, and the last part finds nothing left to post. -/
def State.engineLaw (s : State) : Prop :=
  (s.link.turn ≠ none → s.onLine ∨ s.ctrl.state = .halted) ∧
  (s.link.driverEnable = true → s.link.phase = .sending ∧ s.link.turn ≠ none ∧ s.onLine) ∧
  (s.port.config ≠ none → s.ctrl.state = .configuring ∨ s.stopped) ∧
  (s.port.record ≠ none →
    s.ctrl.state = .running ∨ s.ctrl.state = .suspending ∨ s.ctrl.state = .resuming ∨ s.stopped) ∧
  (∀ i, s.xfer i ≠ none → s.ctrl.state = .running ∨ s.ctrl.state = .suspending ∨ s.stopped) ∧
  (∀ m p, s.ctrl.state = .suspending → s.susp.seq = .suspending m p →
    (p ≠ .quiet → ∀ i, s.xfer i = none) ∧
    (p = .image → s.store.postList = [] ∧ s.post.reports = [] ∧ s.port.record = none)) ∧
  (∀ x, s.port.image = some x → s.stopped ∨ match x with
    | .bodyWrite _ _ => s.ctrl.state = .suspending ∧ ∃ m, s.susp.seq = .suspending m .image
    | .headerWrite _ _ => s.ctrl.state = .suspending ∧ ∃ m, s.susp.seq = .suspending m .image
    | .headerRead _ => s.ctrl.state = .resuming
    | .stationsRead _ => s.ctrl.state = .resuming
    | .contextsRead _ _ => s.ctrl.state = .resuming
    | .spentWrite _ _ => s.ctrl.state = .resuming)

/-- The unsolicited credits that a poll turn in progress holds. -/
def State.pollCredit (s : State) : Nat :=
  match s.link.turn with
  | some t => match t.purpose with
    | .poll _ => 1
    | _ => 0
  | none => 0

/-- The turn in progress uses the resolver's reservation. -/
def State.attentionTurn (s : State) : Prop :=
  ∃ t, s.link.turn = some t ∧ ((∃ lo hi, t.purpose = .call lo hi) ∨ ∃ a, t.purpose = .confirm a)

/-- The law of the report queue (R162, R163, R166): every queued report, the resolver's reservation and a poll turn hold a credit
each, and there are at most four; a latch, a CALL step and a confirm POLL stand under the reservation; a CALL step is made without a latch; a REPORT record being
written has its report in the queue; no turn is in progress at an idle engine. -/
def State.reportLaw (s : State) : Prop :=
  s.post.unsolCredits ≤ 4 ∧
  s.post.reports.length + (if s.res.reserved then 1 else 0) + s.pollCredit ≤ s.post.unsolCredits ∧
  (s.res.latched ≠ none → s.res.reserved = true) ∧ (s.attentionTurn → s.res.reserved = true) ∧
  (∀ t lo hi, s.link.turn = some t → t.purpose = .call lo hi → s.res.latched = none) ∧
  (∀ w, s.port.record = some w → w.source = .report → s.post.reports ≠ []) ∧
  (s.link.phase = .idle → s.link.turn = none)

/-- The slots in the post list. -/
def State.postSlots (s : State) : List SlotId :=
  s.store.postList.filterMap fun e => match e with
    | .slot i => some i
    | .slotless _ => none

/-- Every place a slot can stand in, one after another (R63). -/
def State.placedSlots (s : State) : List SlotId :=
  s.store.safeList ++ (List.finRange 40).flatMap s.list ++ (List.finRange 4).flatMap s.barrier ++ s.store.followers ++ s.postSlots

/-- The exchanges of the image are saved and not yet rebuilt: SUSPENDED, and RESUMING up to the SPENT write (R180, R186). -/
def State.saved (s : State) : Prop :=
  s.ctrl.state = .suspended ∨ (s.ctrl.state = .resuming ∧ ∀ n d, s.port.image ≠ some (.spentWrite n d))

/-- The law of slot accounting (R63): a slot in use stands in exactly one place, once, and no FREE slot stands anywhere; the post list
holds exactly the DONE slots; the station lists hold exchanges of the five station kinds that name the station, the other lists those of
their kinds; the exchange in turn is the head of its list; followers exist only with an exchange turn (R73). While the exchanges are
saved in the image, no slot is in use and nothing waits to be posted (R180), and the header read names the saved count (R183). -/
def State.slotLaw (s : State) : Prop :=
  s.placedSlots.Nodup ∧ (∀ i, (s.slot i).life ≠ .free ↔ i ∈ s.placedSlots) ∧
  (∀ i, (s.slot i).life = .done ↔ i ∈ s.postSlots) ∧
  (∀ a, ∀ i ∈ s.list a, (s.slot i).station = some a ∧ ∃ k, (s.slot i).kind = some k ∧ k.usesLine = true) ∧
  (∀ i ∈ s.store.safeList, (s.slot i).kind = some .safe ∧ (s.slot i).station = none) ∧
  (∀ r, ∀ i ∈ s.barrier r, (s.slot i).kind = some .barrier ∧ (s.slot i).ring = r) ∧
  (∀ i ∈ s.store.followers,
    (s.slot i).kind = some .cancel ∨ (s.slot i).kind = some .fence ∨ (s.slot i).kind = some .stationSet) ∧
  (∀ t, s.link.turn = some t → s.link.phase ≠ .idle ∧
    (∀ i a, t.purpose = .exchange i a → (s.list a).head? = some i ∧ s.xfer i = none) ∧
    (∀ i, t.purpose = .safe i → s.store.safeList.head? = some i ∧ s.link.phase = .sending)) ∧
  (s.store.followers ≠ [] → s.turnSlot ≠ none ∨ s.ctrl.state = .resetting) ∧
  (∀ i x, s.xfer i = some x → (s.slot i).life ≠ .free ∧ ((s.slot i).life = .active → match x with
    | .read _ _ => (s.slot i).kind = some .send ∧ (s.slot i).held = none
    | .write _ _ => (s.slot i).kind = some .fetch)) ∧
  (∀ w, s.port.record = some w → w.source = .post → ∃ e rest, s.store.postList = e :: rest ∧ ∀ i, e = .slot i → s.xfer i = none) ∧
  (s.saved → (∀ i, (s.slot i).life = .free) ∧ s.store.postList = [] ∧
    ∀ h, s.susp.seq = .resuming (some h) → h.contexts = s.susp.saved ∧ h.contexts ≤ 64) ∧
  (∀ x, s.port.image = some x → s.ctrl.state = .resuming →
    (∃ n, x = .stationsRead n) ∨ (∃ n l, x = .contextsRead n l) → ∃ h, s.susp.seq = .resuming (some h))

/-- The law of list depth (R65). -/
def State.depthLaw (s : State) : Prop := ∀ a, (s.list a).length ≤ (s.stn a).depth

/-- The exchange credits that are accounted for (R162): one for each slot in use, each slotless result in the post list, each staged
entry, the entry read outstanding and each context saved and not yet rebuilt. `saved` says whether the contexts are. -/
def State.exchangeCredits (s : State) (saved : Bool) : Nat :=
  ((List.finRange 64).countP fun i => (s.slot i).life != .free) + (s.store.postList.length - s.postSlots.length)
    + ((List.finRange 4).countP fun r => (s.ring r).staged.isSome) + (if s.port.entry.isSome then 1 else 0)
    + (if saved then s.susp.saved else 0)

/-- The law of credits (R162): the unconsumed records and the reserved credits fit the completion ring, and each kind of reserved credit
is the count of what holds one, a reservation the latch or the attention turn it is kept for (R131, R138); once the part has stopped, the
counts are frozen while transactions still end. An entry being read is staged nowhere. -/
def State.creditLaw (s : State) : Prop :=
  s.post.unconsumed + (s.post.exCredits + s.post.unsolCredits + s.post.writeCredit) ≤ s.post.size ∧
  (¬s.stopped → (s.saved → s.post.exCredits = s.exchangeCredits true) ∧ (¬s.saved → s.post.exCredits = s.exchangeCredits false) ∧
    s.post.writeCredit = match s.port.record with
      | some w => if w.source = .event then 1 else 0
      | none => 0) ∧
  (s.ctrl.state ≠ .resetting →
    s.post.unsolCredits = s.post.reports.length + (if s.res.reserved then 1 else 0) + s.pollCredit ∧
    (s.res.reserved = true → s.res.latched ≠ none ∨ s.attentionTurn)) ∧
  (∀ e, s.port.entry = some e → (s.ring e.ring).staged = none)

/-- The command that a write of the row UNKNOWN_COMMAND runs is the one its word names (R192, Table 12-11). -/
def namedBy : Instr → Instr
  | .unknownCommand code => commandOf code
  | c => c

/-- The controller transitions of R191, with the command at which each is made. A command may also leave the state as it is. -/
def transitionAllowed : Instr → CtrlState → CtrlState → Prop
  | .powerOn, _, t => t = .off
  | .start, s, t => s = .off ∧ (t = .configuring ∨ t = .halted)
  | .configReadDone _, s, t => s = .configuring ∧ (t = .running ∨ t = .halted)
  | .configReadFault, s, t => s = .configuring ∧ t = .halted
  | .suspendGraceful, s, t => s = .running ∧ t = .suspending
  | .suspendImmediate, s, t => s = .running ∧ t = .suspending
  | .recordWriteFault, s, t => (s = .running ∨ s = .suspending ∨ s = .resuming) ∧ t = .halted
  | .imageWriteFault, s, t => s = .suspending ∧ t = .halted
  | .imageHeaderWriteDone, s, t => s = .suspending ∧ t = .suspended
  | .resume, s, t => s = .suspended ∧ t = .resuming
  | .headerReadDone _, s, t => s = .resuming ∧ t = .halted
  | .stationRecordsReadDone _, s, t => s = .resuming ∧ t = .halted
  | .contextsReadDone _, s, t => s = .resuming ∧ t = .halted
  | .imageReadFault, s, t => s = .resuming ∧ t = .halted
  | .spentWriteDone, s, t => s = .resuming ∧ t = .running
  | .spentWriteFault, s, t => s = .resuming ∧ t = .halted
  | .fullReset, _, t => t = .resetting
  | .resetComplete, s, t => s = .resetting ∧ t = .off
  | _, _, _ => False

/-- The commands that load or clear the configuration (R191, R196, R199). -/
def reconfigures : Instr → Bool
  | .powerOn => true
  | .configReadDone _ => true
  | .resetComplete => true
  | _ => false

/-- Two states hold the same configuration: line, ring descriptors, windows, schedule and ratios, attention range, completion
ring (R1, R112, R127, R143, R153, R173). -/
def SameConfiguration (s t : State) : Prop :=
  t.line = s.line ∧ t.fetch.windows = s.fetch.windows ∧
  (∀ r, (t.ring r).enabled = (s.ring r).enabled ∧ (t.ring r).base = (s.ring r).base ∧ (t.ring r).size = (s.ring r).size ∧
    (t.ring r).cls = (s.ring r).cls ∧ (t.ring r).prio = (s.ring r).prio) ∧
  t.arb.schedule = s.arb.schedule ∧ t.arb.ratio = s.arb.ratio ∧ t.arb.probeInterval = s.arb.probeInterval ∧
  t.arb.attnInterval = s.arb.attnInterval ∧ t.res.lo = s.res.lo ∧ t.res.hi = s.res.hi ∧
  t.post.base = s.post.base ∧ t.post.size = s.post.size

/-- The line engine works on the turn `t` in phase `p` (R2, R25). -/
def State.works (s : State) (t : Turn) (p : LinkPhase) : Prop :=
  (s.ctrl.state = .running ∨ s.ctrl.state = .suspending) ∧ s.link.phase = p ∧ s.link.turn = some t

/-- No ring waits with a staged entry for a resource (R154). -/
def State.noneHeld (s : State) : Prop := ∀ r, (s.ring r).held = false

/-- The station's list holds exchanges of the five station kinds that name this station, each once (R63, R65). -/
def State.listSound (s : State) (a : StationId) : Prop :=
  (s.list a).Nodup ∧ ∀ i ∈ s.list a, (s.slot i).station = some a ∧ ∃ k, (s.slot i).kind = some k ∧ k.usesLine = true

/-- What a purge of a station's list makes of the store and of the depth (R58, R59, R42): the exchanges that `keep` does not name end
with `st` in list order, the one whose turn is in progress excepted. -/
def Purged (s t : State) (a : StationId) (keep : Slot → Bool) (st : Status) : Prop :=
  let stays : SlotId → Bool := fun i => keep (s.slot i) || s.turnSlot == some i
  let ended := (s.list a).filter fun i => !stays i
  t.list a = (s.list a).filter stays ∧ (∀ b, b ≠ a → t.list b = s.list b) ∧ (∀ r, t.barrier r = s.barrier r) ∧
  t.store.safeList = s.store.safeList ∧ t.store.followers = s.store.followers ∧
  t.store.postList = s.store.postList ++ ended.map PostEntry.slot ∧
  (∀ i ∈ ended, t.slot i = { s.slot i with life := .done, result := some st, held := none }) ∧
  (∀ i, i ∉ ended → s.turnSlot ≠ some i → t.slot i = s.slot i) ∧
  (t.stn a).depth = (s.stn a).depth - min ended.length ((s.stn a).depth - (s.stn a).targetDepth)

/-! ### Terms of the statements on turns -/

/-- The first station after a pointer with a property: ascending addresses from the pointer on, wrapping from 40 to 1; a pointer of 0
names none (R112). -/
def FirstAfter (p : Nat) (q : StationId → Prop) (a : StationId) : Prop :=
  q a ∧ ∀ b, q b → (a.val + 40 - min p 40) % 40 ≤ (b.val + 40 - min p 40) % 40

/-- A turn to one station as its beginning fixes it (R6, R24): the frame with the station's M if it is sequenced, the station's T as start
limit, the tries allowed, the first try. -/
def TurnTo (s : State) (u : Turn) (a : StationId) (k : MKind) (last : Bool) (payload : List Byte) (allowed : Nat) : Prop :=
  u.kind = k ∧ u.image.address = BitVec.ofNat 8 (a.val + 1) ∧
  u.image.control = BitVec.ofNat 8
    (k.code + (if k.sequenced && (s.stn a).m then 16 else 0) + (if last then 64 else 0)) ∧
  u.image.payload = payload ∧
  u.image.check = crc (u.image.address :: u.image.control :: BitVec.ofNat 8 payload.length :: payload) ∧
  u.startLimit = some (s.stn a).timeout ∧ u.allowed = allowed ∧ u.tries = 1

/-- The turn is on the line in its first try (R7, R24). -/
def Began (t : State) (u : Turn) : Prop :=
  t.link.turn = some u ∧ t.link.phase = .sending ∧ t.link.driverEnable = true ∧ t.link.phaseLeft = 6 + u.image.payload.length

/-- The head of a station list is eligible for an exchange turn (Table 6-3, R85). -/
def State.eligible (s : State) (a : StationId) (i : SlotId) : Prop :=
  (s.list a).head? = some i ∧ ((s.stn a).state = .up ∨ ((s.stn a).state = .down ∧ (s.slot i).kind = some .probe)) ∧
  (s.stn a).resync = false ∧ (s.stn a).holdOff = none ∧ ((s.slot i).kind = some .send → (s.slot i).held ≠ none) ∧
  ((s.slot i).kind = some .fetch → s.xfer i = none)

/-- The exchange turn of slot `i` to its station has begun from `s` (R69, R85): the frame of its kind, a WRITE with the held block, the
station's retry limit plus one tries. -/
def ExchangeBegun (s t : State) (u : Turn) (a : StationId) (i : SlotId) : Prop :=
  u.purpose = .exchange i a ∧ Began t u ∧ t.slot i = { s.slot i with tries := 1, unknown := false, begun := true } ∧
  (∀ j, j ≠ i → t.slot j = s.slot j) ∧
  (∀ h, (s.slot i).kind = some .send → (s.slot i).held = some h →
    TurnTo s u a .write h.form.last h.data ((s.stn a).retryLimit + 1)) ∧
  ((s.slot i).kind = some .fetch → TurnTo s u a .read false [] ((s.stn a).retryLimit + 1)) ∧
  ((s.slot i).kind = some .query → TurnTo s u a .poll false [] ((s.stn a).retryLimit + 1)) ∧
  ((s.slot i).kind = some .probe → TurnTo s u a .probe false [] ((s.stn a).retryLimit + 1)) ∧
  ((s.slot i).kind = some .clear → TurnTo s u a .clear false [] ((s.stn a).retryLimit + 1))

/-- A record position is free (R162). -/
def State.creditFree (s : State) : Prop :=
  s.post.unconsumed + (s.post.exCredits + s.post.unsolCredits + s.post.writeCredit) < s.post.size

/-- A poll is due to station `a` once the cursor is settled (R114, R163). -/
def State.pollIsDue (s : State) (a : StationId) : Prop :=
  s.arb.emptyTimer = none ∧ s.arb.schedule[s.arb.cursor]? = some a ∧ (s.stn a).state = .up ∧ s.creditFree ∧
  s.post.unsolCredits < 4

/-- A recovery probe is due (R125). -/
def State.probeIsDue (s : State) : Prop := s.arb.recoveryDue = true ∧ ∃ a, (s.stn a).state = .down

/-- On an exchange turn to `a` the last character of a correct frame from `a` arrives, with the turn's M and FRESH clear; the exchange
has no result yet, no ring is HELD and no exchange of the list is outcome-unknown. -/
def State.hears (s : State) (u : Turn) (i : SlotId) (a : StationId) (c : Byte) (f : RxFrame) : Prop :=
  s.works u .listening ∧ s.link.late = false ∧ u.purpose = .exchange i a ∧ (s.slot i).station = some a ∧
  (s.slot i).result = none ∧ (s.slot i).unknown = false ∧ rxProgress (s.link.rx ++ [c]) = .frame ∧
  f = RxFrame.ofChars (s.link.rx ++ [c]) ∧ f.station = some a ∧ f.m = u.image.m ∧ f.fresh = false ∧ s.noneHeld ∧
  ∀ j ∈ s.list a, (s.slot j).unknown = false

/-- The exchange of a turn has no CANCEL and the turn no follower. -/
def State.alone (s : State) (i : SlotId) : Prop := (s.slot i).cancelBy = none ∧ s.store.followers = []

/-- A turn is over: the engine is IDLE, and the guard runs from now (R13, R25). -/
def TurnDone (s t : State) : Prop :=
  t.link.phase = .idle ∧ t.link.turn = none ∧ t.link.driverEnable = false ∧ t.link.guardLeft = s.line.guardTime ∧
  t.ctrl = s.ctrl

/-- The turn of slot `i` is over, and no other slot and no credit changed. -/
def TurnOver (s t : State) (i : SlotId) : Prop :=
  TurnDone s t ∧ t.post = s.post ∧ ∀ j, j ≠ i → j ∉ s.store.followers → t.slot j = s.slot j

/-- A slot leaves the list of its station, which lowers a depth above its target by one (R42, R65). -/
def LeavesList (s t : State) (i : SlotId) (a : StationId) : Prop :=
  t.list a = (s.list a).erase i ∧ (∀ b, b ≠ a → t.list b = s.list b) ∧
  (t.stn a).depth = (s.stn a).depth - (if i ∈ s.list a ∧ (s.stn a).targetDepth < (s.stn a).depth then 1 else 0)

/-- The exchange ends with `st` and the progress that `x` holds, and joins the post list (R70, R81). -/
def ExchangeEnds (s t : State) (i : SlotId) (a : StationId) (x : Slot) (st : Status) : Prop :=
  t.slot i = { x with life := .done, result := some st, held := none } ∧ LeavesList s t i a ∧
  t.store.postList = s.store.postList ++ [.slot i] ++ s.store.followers.map PostEntry.slot ∧ t.store.followers = []

/-- The exchange has more to do: it stays in its list with the progress `x`, a normal one behind the urgent entries (R68). -/
def ExchangeStays (s t : State) (i : SlotId) (a : StationId) (x : Slot) : Prop :=
  t.slot i = x ∧ t.store.postList = s.store.postList ++ s.store.followers.map PostEntry.slot ∧ t.store.followers = [] ∧
  (∀ b, b ≠ a → t.list b = s.list b) ∧ (t.stn a).depth = (s.stn a).depth ∧
  ∀ rest, s.list a = i :: rest → t.list a =
    if (s.slot i).urgent then s.list a
    else rest.takeWhile (fun j => (s.slot j).urgent) ++ i :: rest.dropWhile (fun j => (s.slot j).urgent)

/-- The followers of a turn end in order, a CANCEL among them with `cancel`, another with the result of its take (R73). -/
def FollowersEnd (s t : State) (cancel : Status) : Prop :=
  ∀ j ∈ s.store.followers, t.slot j = { s.slot j with
    life := .done, held := none
    result := some (if (s.slot j).kind = some .cancel then cancel else (s.slot j).result.getD .ok) }

/-- The event `e` ends a try on the line that a turn to station `a` hears in vain: SILENT, GARBLED, or a frame of another station
(R11, R12, R14, R26). -/
def State.failsTry (s : State) (a : StationId) (e : Instr) : Prop :=
  (e = .startLimitExpiry ∧ s.link.rx = []) ∨ (e = .gapLimitExpiry ∧ s.link.rx ≠ []) ∨
  (s.link.late = false ∧ (e = .garbledReception .framingError ∨
    (∃ c, e = .garbledReception (.character c) ∧ rxProgress (s.link.rx ++ [c]) = .garbled) ∨
    ∃ c, e = .frameReceived c ∧ rxProgress (s.link.rx ++ [c]) = .frame ∧
      (RxFrame.ofChars (s.link.rx ++ [c])).station ≠ some a))

/-- A station frame is well formed and an answer that a master frame of kind `k` may have (Tables 1-2 and 1-3). -/
def RxFrame.answers (f : RxFrame) (k : MKind) : Prop :=
  (f.kind = 0x8 ∧ k = .probe ∧ f.payload.length = 4 ∧ 8 ≤ byteAt f.payload 3 ∧ byteAt f.payload 3 ≤ 120) ∨
  (f.kind = 0x9 ∧ (k = .clear ∨ k = .write) ∧ f.payload = []) ∨
  (f.kind = 0xA ∧ (k = .write ∨ k = .read) ∧ f.payload.length = 1 ∧ 1 ≤ byteAt f.payload 0 ∧ byteAt f.payload 0 ≤ 3) ∨
  (f.kind = 0xB ∧ k = .poll ∧ 1 ≤ f.payload.length ∧ f.payload.length ≤ 48) ∨
  (f.kind = 0xC ∧ k = .poll ∧ f.payload = []) ∨ (f.kind = 0xD ∧ k = .read ∧ f.payload.length ≤ 120) ∨
  (f.kind = 0xE ∧ k = .call ∧ f.payload = [])

/-- At the end of a turn to station `a` the exchange of slot `j`, if it then stands in the list, loses the flag outcome-unknown; nothing
else of the slot changes (R189). -/
def Unflagged (s t : State) (a : StationId) (j : SlotId) : Prop :=
  t.slot j = { s.slot j with unknown := (s.slot j).unknown && !decide (j ∈ t.list a) }

/-- The entry of station `a` is `y` after the outcome of a turn, but for its timer and its depth; RESYNC is also set if the list still
held an outcome-unknown exchange (R189), in UP and JOINING alone (R51). -/
def EntryAfter (s t : State) (a : StationId) (y : Station) : Prop :=
  t.stn a = { y with
    holdOff := (t.stn a).holdOff, depth := (t.stn a).depth
    resync := y.resync || ((y.state == .up || y.state == .joining) && (t.list a).any fun j => (s.slot j).unknown) } ∧
  ((s.stn a).state = .up → y.state = .joining → (t.stn a).holdOff = none) ∧
  ∀ b, b ≠ a → t.stn b = { s.stn b with holdOff := (t.stn b).holdOff }

/-- The event `e` ends the turn `u` to station `a` with one of the four outcomes that answer nothing: FAILED at the end of its last try,
the others at a frame of the station (Tables 2-3 and 2-4). -/
def State.turnFails (s : State) (u : Turn) (a : StationId) (e : Instr) (o : TurnOutcome) : Prop :=
  (s.failsTry a e ∧ u.allowed ≤ u.tries ∧ o = .failed) ∨
  ∃ c f, e = .frameReceived c ∧ s.link.late = false ∧ rxProgress (s.link.rx ++ [c]) = .frame ∧
    f = RxFrame.ofChars (s.link.rx ++ [c]) ∧ f.station = some a ∧
    ((¬f.answers u.kind ∧ o = .unexpected) ∨ (f.answers u.kind ∧ f.fresh = true ∧ u.kind ≠ .probe ∧ o = .fresh) ∨
      (f.answers u.kind ∧ f.fresh = false ∧ u.kind.sequenced = true ∧ f.m ≠ u.image.m ∧ o = .outOfStep))

/-- Such an outcome of a turn of kind `k` takes the station DOWN: at an UP station whose failures reach D, at a JOINING one whose CLEAR
failed (Table 3-5). -/
def Station.failsDown (x : Station) (k : MKind) (o : TurnOutcome) : Prop :=
  (o = .failed ∨ o = .unexpected) ∧
  ((x.state = .up ∧ x.downLimit ≤ x.failures + 1) ∨ (x.state = .joining ∧ k = .clear))

/-- What such an outcome makes of the entry `x` where the station does not go DOWN (Table 3-5). -/
def FailsTo (x y : Station) (k : MKind) (o : TurnOutcome) : Prop :=
  (x.state = .up →
    (o = .failed → y = { x with failures := x.failures + 1, resync := x.resync || k.sequenced }) ∧
    (o = .unexpected → y = { x with failures := x.failures + 1, resync := true }) ∧
    (o = .outOfStep → y = { x with failures := 0, state := .joining, notice := some .outOfStep }) ∧
    (o = .fresh → y = { x with failures := 0, state := .joining, notice := some .restarted })) ∧
  (x.state = .joining →
    (o = .failed ∨ o = .unexpected → y = { x with failures := x.failures + 1 }) ∧
    (o = .outOfStep ∨ o = .fresh → y = { x with failures := 0 })) ∧
  (x.state = .down ∨ x.state = .fenced ∨ x.state = .vacant → y = x)

/-- Station `a` has gone DOWN at the end of a turn, notice FAILED: `l` is its list without the turn's own exchange and `posted` the post
list with it, and of `l` all but the PROBE exchanges have ended STATION_DOWN in list order (R46, R58, R42). The slots `other` names keep
what they held but for the flag of R189. -/
def WentDown (s t : State) (a : StationId) (l : List SlotId) (posted : List PostEntry) (other : SlotId → Prop) : Prop :=
  let probe : SlotId → Bool := fun j => (s.slot j).kind == some .probe
  let ended := l.filter fun j => !probe j
  t.list a = l.filter probe ∧ (∀ b, b ≠ a → t.list b = s.list b) ∧ (∀ r, t.barrier r = s.barrier r) ∧
  t.store.safeList = s.store.safeList ∧ t.store.postList = posted ++ ended.map PostEntry.slot ∧
  (∀ j ∈ ended, t.slot j = { s.slot j with life := .done, result := some .stationDown, held := none }) ∧
  (∀ j, j ∉ ended → other j → Unflagged s t a j) ∧
  (∀ b, b ≠ a → t.stn b = { s.stn b with holdOff := (t.stn b).holdOff }) ∧
  t.stn a = { s.stn a with
    failures := (s.stn a).failures + 1, state := .down, resync := false, holdOff := none, notice := some .failed
    depth := (s.stn a).depth -
      min ((s.list a).length - (l.filter probe).length) ((s.stn a).depth - (s.stn a).targetDepth) }

/-- The end of a poll turn or confirm POLL to `a` has given its credit back, and a confirm POLL its latch (R124, R138). -/
def PollCreditReturned (s t : State) (u : Turn) (a : StationId) : Prop :=
  (u.purpose = .poll a → t.post = { s.post with unsolCredits := s.post.unsolCredits - 1 } ∧ t.res = s.res) ∧
  (u.purpose = .confirm a →
    t.post = { s.post with unsolCredits := s.post.unsolCredits - (if s.res.reserved then 1 else 0) } ∧
    t.res = { s.res with latched := none, reserved := false, step := .none })

/-- The end of a poll turn or confirm POLL to `a` has queued the report `p` under its credit (R124, R138, R166). -/
def PollReportJoins (s t : State) (u : Turn) (a : StationId) (p : List Byte) : Prop :=
  (u.purpose = .poll a → t.res = s.res ∧
    t.post = { s.post with reports := s.post.reports ++ [{ station := a, payload := p, source := .poll }] }) ∧
  (u.purpose = .confirm a → t.res = { s.res with latched := none, reserved := false, step := .none } ∧
    t.post = { s.post with reports := s.post.reports ++ [{ station := a, payload := p, source := .attention }] })

/-! ### Terms of the statements on records -/

/-- Take number `x` is earlier than `y` (R75). -/
def EarlierTake (x y : Word) : Prop := 1 ≤ (y - x).toNat ∧ (y - x).toNat ≤ 2 ^ 31 - 1

/-- A barrier of ring `r` with take number `n` still waits, the post list being `rest` and the slot `gone` FREE (R76). -/
def State.barrierWaits (s : State) (r : RingId) (gone : Option SlotId) (rest : List PostEntry) (n : Word) : Prop :=
  (∃ q, gone ≠ some q ∧ (s.slot q).life ≠ .free ∧ (s.slot q).ring = r ∧ EarlierTake (s.slot q).take n) ∨
  ∃ q, .slotless q ∈ rest ∧ q.ring = r ∧ EarlierTake q.take n

/-- An exchange of ring `r` has been posted, which leaves the post list `rest` and frees the slot `gone`: no other slot and no other
barrier list changes, and the head of the ring's barrier list ends unless it still waits (R76, R81). -/
def PostedFrom (s t : State) (r : RingId) (gone : Option SlotId) (rest : List PostEntry) : Prop :=
  (∀ q, q ≠ r → t.barrier q = s.barrier q) ∧ t.store.safeList = s.store.safeList ∧
  t.store.followers = s.store.followers ∧
  (s.barrier r = [] → t.barrier r = [] ∧ t.store.postList = rest ∧ ∀ q, gone ≠ some q → t.slot q = s.slot q) ∧
  ∀ j more, s.barrier r = j :: more →
    (s.barrierWaits r gone rest (s.slot j).take →
      t.barrier r = j :: more ∧ t.store.postList = rest ∧ ∀ q, gone ≠ some q → t.slot q = s.slot q) ∧
    (¬s.barrierWaits r gone rest (s.slot j).take →
      t.barrier r = more ∧ t.slot j = { s.slot j with life := .done, result := some .ok, held := none } ∧
      t.store.postList = rest ++ [.slot j] ∧ ∀ q, q ≠ j → gone ≠ some q → t.slot q = s.slot q)

/-! ### Terms of the statements on takes -/

/-- In RUNNING an entry read of kind `k` ends that passes steps 1 to 7, with no ring HELD. -/
def State.admits (s : State) (e : EntryRead) (data : List Byte) (en : Entry) (k : ExKind) : Prop :=
  s.ctrl.state = .running ∧ s.port.entry = some e ∧ e.discard = false ∧ data.length = 32 ∧ s.noneHeld ∧
  en = Entry.ofBytes data ∧ s.refusal e.ring en = none ∧ ExKind.ofCode en.kind = some k

/-- The ring's share of a take (R156), and what no take changes. -/
def Taken (s t : State) (r : RingId) : Prop :=
  t.ring r = { s.ring r with
    nextTake := (s.ring r).nextTake + 1, head := ((s.ring r).head + 1) % (s.ring r).size, staged := none, held := false } ∧
  (∀ q, q ≠ r → t.ring q = s.ring q) ∧ t.fetch.rotation = s.fetch.rotation ∧ t.post = s.post ∧ t.port.entry = none ∧
  t.port.record = s.port.record ∧ t.link = s.link ∧ t.ctrl = s.ctrl ∧ t.irq = s.irq ∧ t.arb = s.arb ∧ t.res = s.res ∧
  t.susp = s.susp

/-- The post-list entry of a slotless result. -/
def slotlessEntry (s : State) (r : RingId) (en : Entry) (st : Status) : PostEntry :=
  .slotless { ring := r, tag := en.tag, take := (s.ring r).nextTake, station := en.station, status := st }

/-- The lowest-numbered FREE slot (R62). -/
def State.lowestFree (s : State) (j : SlotId) : Prop := (s.slot j).life = .free ∧ ∀ q, q < j → (s.slot q).life ≠ .free

/-- What a CANCEL of this ring and tag may find (R77). -/
def State.cancellable (s : State) (r : RingId) (tag : Word) (i : SlotId) : Prop :=
  (s.slot i).life = .active ∧ (s.slot i).ring = r ∧ (s.slot i).tag = tag ∧ i ∉ s.store.followers ∧
  (s.slot i).kind ≠ some .cancel ∧ (s.slot i).kind ≠ some .stationSet ∧ (s.slot i).kind ≠ some .fence

/-- Ring `q` comes before ring `r` in the order of R148: URGENT rings by number, then NORMAL rings in rotation after the pointer. -/
def State.before (s : State) (q r : RingId) : Prop :=
  let place : RingId → Nat := fun x => match s.fetch.rotation with
    | none => x.val
    | some p => (x.val + 3 - p.val) % 4
  ((s.ring q).prio = .urgent ∧ ((s.ring r).prio = .normal ∨ q < r)) ∨
  ((s.ring q).prio = .normal ∧ (s.ring r).prio = .normal ∧ place q < place r)

/-- The ring without its staged entry. -/
def State.unstaged (s : State) (r : RingId) : State := s.setRing r { s.ring r with staged := none, held := false }

/-- An entry of ring `r` is being read. -/
def State.reading (s : State) (r : RingId) : State :=
  { s with port := { s.port with entry := some { ring := r, index := 0, addr := 0, discard := false } } }

/-- The commands at which a slot may become FREE, an exchange may leave a list or an exchange turn may end, takes apart. -/
def mayRelease : Instr → Bool
  | .masterFrameEnd => true
  | .startLimitExpiry => true
  | .gapLimitExpiry => true
  | .frameReceived _ => true
  | .garbledReception _ => true
  | .blockReadDone _ _ => true
  | .blockReadFault _ => true
  | .blockWriteDone _ => true
  | .blockWriteFault _ => true
  | .recordWriteDone => true
  | _ => false

/-- An exchange turn is in progress in `s` and over in `t`. -/
def exchangeTurnEnded (s t : State) : Prop :=
  ∃ u, s.link.turn = some u ∧ u.purpose.isExchange = true ∧ t.link.turn = none

/-! ### Tables of checks -/

/-- The check of field `n` of the configuration record (Table 11-3, with the places of Table 12-5). -/
def ConfigFieldPasses (d : List Byte) (n : Nat) : Prop :=
  let b := byteAt d
  let stn := fun k => 424 + 8 * ((n - 163) / 8) + k
  let ring := fun k => 104 + 16 * ((n - 78) / 5) + k
  let win := fun k => 168 + 16 * ((n - 99) / 4) + k
  if n = 1 then b 0 ≤ 7
  else if n = 2 then 1 ≤ b 1 ∧ b 1 ≤ 16
  else if n = 3 then 4 ≤ b 2 ∧ b 2 ≤ 64
  else if n = 4 then 16 ≤ fieldAt d 4 2 ∧ fieldAt d 4 2 ≤ 4096
  else if n = 5 then 1 ≤ b 3 ∧ b 3 ≤ 8
  else if n = 6 ∨ n = 7 then True
  else if n = 8 then 1 ≤ b 8 ∧ b 8 ≤ 40
  else if n = 9 then b 8 ≤ b 9 ∧ b 9 ≤ 40
  else if n = 10 then 1 ≤ b 10 ∧ b 10 ≤ 64
  else if n ≤ 74 then n - 11 < b 10 → 1 ≤ b (16 + (n - 11)) ∧ b (16 + (n - 11)) ≤ 40
  else if n = 75 then fieldAt d 80 8 % 4096 = 0
  else if n = 76 then fieldAt d 88 8 % 64 = 0
  else if n = 77 then (∃ e, 4 ≤ e ∧ e ≤ 12 ∧ fieldAt d 96 2 = 2 ^ e) ∧ fieldAt d 88 8 + 64 * fieldAt d 96 2 ≤ 2 ^ 64
  else if n ≤ 97 then
    if (n - 78) % 5 = 0 then b (ring 0) ≤ 1
    else b (ring 0) = 1 →
      if (n - 78) % 5 = 1 then fieldAt d (ring 8) 8 % 64 = 0
      else if (n - 78) % 5 = 2 then
        (∃ e, 3 ≤ e ∧ e ≤ 10 ∧ fieldAt d (ring 4) 2 = 2 ^ e) ∧ fieldAt d (ring 8) 8 + 32 * fieldAt d (ring 4) 2 ≤ 2 ^ 64
      else if (n - 78) % 5 = 3 then b (ring 1) ≤ 1
      else b (ring 2) ≤ 1
  else if n = 98 then b 11 ≤ 16
  else if n ≤ 162 then
    (n - 99) / 4 < b 11 →
      if (n - 99) % 4 = 0 then fieldAt d (win 0) 8 % 4096 = 0
      else if (n - 99) % 4 = 1 then
        fieldAt d (win 8) 4 % 4096 = 0 ∧ 4096 ≤ fieldAt d (win 8) 4 ∧ fieldAt d (win 8) 4 ≤ 1073741824 ∧
          fieldAt d (win 0) 8 + fieldAt d (win 8) 4 ≤ 2 ^ 64
      else if (n - 99) % 4 = 2 then b (win 12) ≤ 1
      else b (win 13) ≤ 1
  else if (n - 163) % 8 = 0 then b (stn 0) ≤ 1
  else b (stn 0) = 1 →
    match (n - 163) % 8 with
    | 1 => 4 ≤ b (stn 1) ∧ b (stn 1) ≤ 255
    | 2 => b (stn 2) ≤ 7
    | 3 => 1 ≤ b (stn 3) ∧ b (stn 3) ≤ 15
    | 4 => 1 ≤ b (stn 4) ∧ b (stn 4) ≤ 16
    | 5 => 8 ≤ b (stn 5) ∧ b (stn 5) ≤ 120
    | 6 => b (stn 6) ≤ 1
    | _ => b (stn 7) ≤ 1

end Sys2Proof.Machine
end

