-- ==== Sys2Proof/Certificates/Slice0/Obligations.lean ====
section
/-! DEFINITION. The statements for the provers. -/

open Sys2Proof Sys2Proof.Machine

/-- For every command and state, a step with the command at the front of the queue is that command's meaning on the state with the queue's rest. -/
def Obligations.StepRunsFrontCommand : Prop :=
  ∀ (c : Instr) (rest : List Instr) (s : State), step { s with pending := c :: rest } = exec c { s with pending := rest }

/-- On an empty queue a step passes 1 ct: in RUNNING the link engine's counts, every hold-off timer and the empty-cycle timer move on; in SUSPENDING the link engine's counts alone; in every other state nothing changes. A listen period whose start or gap limit is exceeded is late. The empty-cycle timer's expiry passes what was left of it and stops it; with the engine IDLE and the guard elapsed by then the cursor is settled afresh at an UP entry or the timer starts again at 128 ct, else no arbiter item but the timer changes. A hold-off timer's expiry stops that timer; the other stations change in their timers alone. No turn begins and no slot changes. That an empty queue is one ct, that an expiry event passes the rest of its timer, that a timer stays at 1 until its expiry event, and that the cursor is settled at the expiry where a choice can be made, are the model's choices (notes/assumptions 2, 3 and 23). -/
def Obligations.LineTimePasses : Prop :=
  (∀ (s : State) (l : Link), s.pending = [] → l = { s.link with
      guardLeft := s.link.guardLeft - 1, phaseLeft := s.link.phaseLeft - 1
      late := s.link.late || (s.link.phase == .listening && s.link.phaseLeft == 0) } →
    (s.ctrl.state = .running → ∃ t, step s = .next t ∧ t.link = l ∧
      (∀ a, t.stn a = { s.stn a with holdOff := (s.stn a).holdOff.map fun n => max 1 (n - 1) }) ∧
      t.arb = { s.arb with emptyTimer := s.arb.emptyTimer.map fun n => max 1 (n - 1) } ∧
      t.ctrl = s.ctrl ∧ t.irq = s.irq ∧ t.line = s.line ∧ t.store = s.store ∧ t.res = s.res ∧ t.fetch = s.fetch ∧
      t.post = s.post ∧ t.susp = s.susp ∧ t.port = s.port ∧ t.pending = []) ∧
    (s.ctrl.state = .suspending → step s = .next { s with link := l }) ∧
    (s.ctrl.state ≠ .running → s.ctrl.state ≠ .suspending → step s = .next s)) ∧
  (∀ (s : State) (n : Nat) (l : Link), l = { s.link with
      guardLeft := s.link.guardLeft - n, phaseLeft := s.link.phaseLeft - n
      late := s.link.late || (s.link.phase == .listening && s.link.phaseLeft < n) } → s.ctrl.state = .running →
    (s.arb.emptyTimer = some n → ∃ t, exec .emptyCycleTimerExpiry s = .next t ∧ t.store = s.store ∧ t.link = l ∧
      t.post = s.post ∧ t.fetch = s.fetch ∧ t.port = s.port ∧ t.ctrl = s.ctrl ∧
      (∀ a, t.stn a = { s.stn a with holdOff := (s.stn a).holdOff.map fun k => max 1 (k - n) }) ∧
      (s.link.phase ≠ .idle ∨ n < s.link.guardLeft → t.arb = { s.arb with emptyTimer := none } ∧ t.res = s.res) ∧
      (s.link.phase = .idle → s.link.guardLeft ≤ n →
        (t.arb.emptyTimer = none ∧ t.cursorUp = true) ∨ t.arb.emptyTimer = some 128)) ∧
    (∀ a, (s.stn a).holdOff = some n → ∃ t, exec (.holdOffExpiry a) s = .next t ∧
      t.stn a = { s.stn a with holdOff := none } ∧
      (∀ b, b ≠ a → t.stn b = { s.stn b with holdOff := (s.stn b).holdOff.map fun k => max 1 (k - n) }) ∧
      t.arb = { s.arb with emptyTimer := s.arb.emptyTimer.map fun k => max 1 (k - n) } ∧ t.store = s.store ∧ t.link = l ∧
      t.post = s.post ∧ t.fetch = s.fetch ∧ t.port = s.port ∧ t.ctrl = s.ctrl))

/-- After power-on IDENT reads 4A464161h, CQ_TAIL reads tail 0 with phase 1, every other register reads 0; the controller is OFF, every slot FREE, every list empty and every station VACANT. POWER_ON in any state gives that state. Outside RESETTING, FULL_RESET is accepted: the controller is RESETTING, the line released, the turn gone, the sequence none, and every other item and every transaction in flight stays. In RESETTING with nothing in flight RESET_COMPLETE gives every block its power-on values; with a transaction in flight, or in another state, the event cannot occur and stops. The model's choices: the values of State.reset for which the spec gives none (notes/assumptions 1); that a stop is the answer to an event that cannot occur (notes/assumptions 4); that POWER_ON forgets the transactions in flight and that the queue of waiting commands outlives a reset (notes/assumptions 7); that RESETTING is always a state of its own (notes/assumptions 11). -/
def Obligations.PowerOnAndFullReset : Prop :=
  ((∀ r, State.reset.readReg r = match r with
    | .ident => 0x4A464161#32
    | .cqTail => 0x80000000#32
    | _ => 0#32) ∧
  State.reset.ctrl.state = .off ∧ (∀ i, (State.reset.slot i).life = .free) ∧ (∀ a, State.reset.list a = []) ∧
  (∀ a, (State.reset.stn a).state = .vacant ∧ (State.reset.stn a).present = false) ∧
  ∀ s : State, exec .powerOn s = .next { State.reset with pending := s.pending }) ∧
  (∀ s : State, s.ctrl.state ≠ .resetting → ∃ t, exec .fullReset s = .next t ∧
    t.ctrl = { s.ctrl with state := .resetting, lastResult := .accepted } ∧ t.link.phase = .idle ∧ t.link.turn = none ∧
    t.link.driverEnable = false ∧ t.susp = { s.susp with seq := .none } ∧ t.irq = s.irq ∧ t.line = s.line ∧
    t.stations = s.stations ∧ t.store = s.store ∧ t.arb = s.arb ∧ t.res = s.res ∧ t.fetch = s.fetch ∧
    t.post = s.post ∧ t.port = s.port ∧ t.pending = s.pending) ∧
  (∀ s : State, s.ctrl.state = .resetting → s.port.config = none → s.port.entry = none → (∀ i, s.xfer i = none) →
    s.port.record = none → s.port.image = none → exec .resetComplete s = .next { State.reset with pending := s.pending }) ∧
  (∀ s : State, s.ctrl.state ≠ .resetting ∨ s.port.config ≠ none ∨ s.port.entry ≠ none ∨ (∃ i, s.xfer i ≠ none) ∨
    s.port.record ≠ none ∨ s.port.image ≠ none → exec .resetComplete s = .fault .notStartable)

/-- In OFF, START is accepted. With the held address a multiple of 64 the controller enters CONFIGURING and the read of the record at that address is in flight, and nothing else changes. Otherwise the controller is HALTED with CONFIG_BAD and detail 0, the HALTED cause is set, no read starts and no block changes. In SUSPENDED, RESUME is accepted: the controller is RESUMING, the 64-byte header read at IMAGE_BASE is in flight, and nothing else changes. -/
def Obligations.StartAndResumeBeginReading : Prop :=
  (∀ (s : State) (n : Nat), s.ctrl.state = .off → n = s.ctrl.configLo.toNat + 2 ^ 32 * s.ctrl.configHi.toNat →
    (n % 64 = 0 → exec .start s = .next { s with
      ctrl := { s.ctrl with state := .configuring, lastResult := .accepted }
      port := { s.port with config := some n } }) ∧
    (n % 64 ≠ 0 → ∃ t, exec .start s = .next t ∧
      t.ctrl = { s.ctrl with state := .halted, lastResult := .accepted, faultCode := .configBad, faultDetail := 0 } ∧
      t.irq = { s.irq with halted := true } ∧ t.link.driverEnable = false ∧ t.port = s.port ∧ t.line = s.line ∧
      t.stations = s.stations ∧ t.store = s.store ∧ t.arb = s.arb ∧ t.res = s.res ∧ t.fetch = s.fetch ∧
      t.post = s.post ∧ t.susp = s.susp)) ∧
  ∀ s : State, s.ctrl.state = .suspended → exec .resume s = .next { s with
    ctrl := { s.ctrl with state := .resuming, lastResult := .accepted }
    susp := { s.susp with seq := .resuming none }
    port := { s.port with image := some (.headerRead s.susp.imageBase) } }

/-- START outside OFF, a suspend command outside RUNNING or with IMAGE_BASE 0, RESUME outside SUSPENDED, LINE_RESET outside RUNNING, and in every state a code outside 1 to 6, set the last command result to REFUSED and change nothing else. FULL_RESET in RESETTING changes nothing at all. A COMMAND write of code 1 to 6 is START, SUSPEND_GRACEFUL, SUSPEND_IMMEDIATE, RESUME, LINE_RESET or FULL_RESET. (That the row UNKNOWN_COMMAND carries the word written, and with a code of 1 to 6 runs the command it names, is the model's choice, notes/assumptions 27.) -/
def Obligations.CommandsRefusedByState : Prop :=
  ∀ (s t : State), t = { s with ctrl := { s.ctrl with lastResult := .refused } } →
    (s.ctrl.state ≠ .off → exec .start s = .next t) ∧
    (s.ctrl.state ≠ .running ∨ s.susp.imageBase = 0 →
      exec .suspendGraceful s = .next t ∧ exec .suspendImmediate s = .next t) ∧
    (s.ctrl.state ≠ .suspended → exec .resume s = .next t) ∧
    (s.ctrl.state ≠ .running → exec .lineReset s = .next t) ∧
    (s.ctrl.state = .resetting → exec .fullReset s = .next s) ∧
    ∀ code : Word, (code.toNat = 0 ∨ 6 < code.toNat → exec (.unknownCommand code) s = .next t) ∧
      (1 ≤ code.toNat → code.toNat ≤ 6 → exec (.unknownCommand code) s = exec (commandOf code) s ∧
        commandOf code = match code.toNat with
          | 1 => .start
          | 2 => .suspendGraceful
          | 3 => .suspendImmediate
          | 4 => .resume
          | 5 => .lineReset
          | _ => .fullReset)

/-- In RUNNING with IMAGE_BASE not 0 both are accepted: the controller is SUSPENDING in its mode and held blocks are discarded, in graceful mode but for that of the turn in progress, which runs on. SUSPEND_IMMEDIATE abandons a turn in progress: the engine is IDLE, the guard runs from now, no other block changes but as follows. Exchange or SAFE turn: its followers pass to the post list, behind the exchange if it ends; with a fixed result it ends so; else with a CANCEL waiting it ends CANCELLED, that CANCEL OK, and RESYNC is set on its station; else it keeps progress and try count, is flagged outcome-unknown and stays in its list, a normal one behind the urgent entries. Poll turn: its credit is returned and RESYNC set. CALL step: its reservation is returned, its range lost. Confirm POLL: latch and reservation are given up and RESYNC set. Link CLEAR and recovery probe: nothing. RESYNC is set in UP and JOINING alone. That a CANCEL behind a result fixed early ends TOO_LATE here is read from the rules (notes/assumptions 18); that only the leading urgent entries count as the urgent entries behind a head is the model's choice (notes/assumptions 28), as is that the outcome-unknown flags of other exchanges stay (notes/assumptions 38). -/
def Obligations.SuspendCommandsBegin : Prop :=
  (∀ s : State, s.ctrl.state = .running → s.susp.imageBase ≠ 0 →
    ∃ t, exec .suspendGraceful s = .next t ∧
      t.ctrl = { s.ctrl with state := .suspending, lastResult := .accepted } ∧
      t.susp = { s.susp with seq := .suspending .graceful .quiet } ∧
      (∀ i, s.turnSlot = some i → t.slot i = s.slot i) ∧
      (∀ i, s.turnSlot ≠ some i → t.slot i = { s.slot i with held := none }) ∧
      (∀ a, t.list a = s.list a) ∧ (∀ r, t.barrier r = s.barrier r) ∧ t.store.safeList = s.store.safeList ∧
      t.store.followers = s.store.followers ∧ t.store.postList = s.store.postList ∧ t.link = s.link ∧
      t.irq = s.irq ∧ t.line = s.line ∧ t.stations = s.stations ∧ t.arb = s.arb ∧ t.res = s.res ∧
      t.fetch = s.fetch ∧ t.post = s.post ∧ t.port = s.port ∧ t.pending = s.pending) ∧
  ∀ s : State, s.ctrl.state = .running → s.susp.imageBase ≠ 0 →
    (s.link.turn = none → ∃ t, exec .suspendImmediate s = .next t ∧
      t.ctrl = { s.ctrl with state := .suspending, lastResult := .accepted } ∧
      t.susp = { s.susp with seq := .suspending .immediate .quiet } ∧ t.link = s.link ∧
      (∀ i, t.slot i = { s.slot i with held := none }) ∧ (∀ a, t.list a = s.list a) ∧
      t.store.postList = s.store.postList ∧ t.stations = s.stations ∧ t.post = s.post ∧ t.fetch = s.fetch ∧
      t.res = s.res ∧ t.arb = s.arb ∧ t.port = s.port) ∧
    ∀ (u : Turn) (resync : Station → Station), s.link.turn = some u →
      (∀ x, resync x = { x with resync := x.resync || x.state == .up || x.state == .joining }) →
      ∃ t, exec .suspendImmediate s = .next t ∧ t.ctrl = { s.ctrl with state := .suspending, lastResult := .accepted } ∧
      t.susp = { s.susp with seq := .suspending .immediate .quiet } ∧ t.link.phase = .idle ∧ t.link.turn = none ∧
      t.link.driverEnable = false ∧ t.link.rx = [] ∧ t.link.guardLeft = s.line.guardTime ∧ t.port = s.port ∧
      t.fetch = s.fetch ∧ t.arb = s.arb ∧ t.irq = s.irq ∧ t.line = s.line ∧ t.pending = s.pending ∧
      (∀ i, (∃ a, u.purpose = .exchange i a) ∨ u.purpose = .safe i → i ∉ s.store.followers →
        t.res = s.res ∧ t.post = s.post ∧ t.store.followers = [] ∧
        (∀ j, j ≠ i → j ∉ s.store.followers → t.slot j = { s.slot j with held := none }) ∧
        FollowersEnd s t (if (s.slot i).result = none ∧ (s.slot i).cancelBy ≠ none then .ok else .tooLate) ∧
        ((s.slot i).result = none → (s.slot i).cancelBy = none →
          t.slot i = { s.slot i with unknown := true, held := none } ∧ t.stations = s.stations ∧
          t.store.postList = s.store.postList ++ s.store.followers.map PostEntry.slot ∧
          t.store.safeList = s.store.safeList ∧
          ∀ a, (s.slot i).station = some a → ExchangeStays s t i a { s.slot i with unknown := true, held := none }) ∧
        ∀ st, (s.slot i).result = some st ∨ ((s.slot i).result = none ∧ (s.slot i).cancelBy ≠ none ∧ st = .cancelled) →
          (∀ a k, (s.slot i).kind = some k → k.usesLine = true → (s.slot i).station = some a →
            ExchangeEnds s t i a (s.slot i) st ∧ (∀ b, b ≠ a → t.stn b = s.stn b) ∧
            t.stn a = { (if (s.slot i).result = none then resync (s.stn a) else s.stn a) with depth := (t.stn a).depth }) ∧
          ((s.slot i).kind = some .safe → (s.slot i).station = none →
            t.slot i = { s.slot i with life := .done, result := some st, held := none } ∧
            t.store.safeList = s.store.safeList.erase i ∧ t.stations = s.stations ∧
            t.store.postList = s.store.postList ++ [PostEntry.slot i] ++ s.store.followers.map PostEntry.slot)) ∧
      ((∀ i, (∀ a, u.purpose ≠ .exchange i a) ∧ u.purpose ≠ .safe i) →
        (∀ i, t.slot i = { s.slot i with held := none }) ∧ t.store = { s.store with slots := t.store.slots } ∧
        ((∃ a, u.purpose = .linkClear a) ∨ (∃ a, u.purpose = .recovery a) →
          t.stations = s.stations ∧ t.post = s.post ∧ t.res = s.res) ∧
        (∀ a, u.purpose = .poll a → t.stn a = resync (s.stn a) ∧ (∀ b, b ≠ a → t.stn b = s.stn b) ∧ t.res = s.res ∧
          t.post = { s.post with unsolCredits := s.post.unsolCredits - 1 }) ∧
        (∀ lo hi, u.purpose = .call lo hi → t.stations = s.stations ∧
          t.res = { s.res with reserved := false, step := .none } ∧
          t.post = { s.post with unsolCredits := s.post.unsolCredits - (if s.res.reserved then 1 else 0) }) ∧
        (∀ a, u.purpose = .confirm a → t.stn a = resync (s.stn a) ∧ (∀ b, b ≠ a → t.stn b = s.stn b) ∧
          t.res = { s.res with reserved := false, step := .none, latched := none } ∧
          t.post = { s.post with unsolCredits := s.post.unsolCredits - (if s.res.reserved then 1 else 0) }))

/-- In RUNNING, LINE_RESET is accepted in one event: the turn's exchange, its followers, the SAFE list, the station lists and the barrier lists end LINE_RESET in that order behind the post list and every list is empty; DOWN, JOINING and UP stations go to JOINING with M 0, failures 0, RESYNC clear, hold-off stopped and notice LINE_RESET, FENCED and VACANT keep state and notice, depths and sizes are kept; staged entries and their credits are returned, HELD and FAULTED cleared, the rotation pointer none; the arbiter's counters return to 0 and the resolver is empty; the turn is gone and the guard runs from now; heads, tails, take numbers, configuration and the completion ring's indices are kept. A read in flight is marked to be discarded. That the depths are kept is read from the rules (notes/assumptions 16). -/
def Obligations.LineResetEndsEverything : Prop :=
  ∀ (s : State) (order : List SlotId), s.ctrl.state = .running →
    order = s.turnSlot.toList ++ s.store.followers ++ (s.store.safeList ++ (List.finRange 40).flatMap s.list
      ++ (List.finRange 4).flatMap s.barrier).filter (fun i => s.turnSlot != some i) →
    ∃ t, exec .lineReset s = .next t ∧ t.ctrl = { s.ctrl with lastResult := .accepted } ∧
      t.store.postList = s.store.postList ++ order.map PostEntry.slot ∧
      (∀ i ∈ order, t.slot i = { s.slot i with life := .done, result := some .lineReset, held := none }) ∧
      (∀ i, i ∉ order → t.slot i = s.slot i) ∧
      (∀ a, t.list a = []) ∧ (∀ r, t.barrier r = []) ∧ t.store.safeList = [] ∧ t.store.followers = [] ∧
      (∀ a, (s.stn a).state = .down ∨ (s.stn a).state = .joining ∨ (s.stn a).state = .up → t.stn a = { s.stn a with
        state := .joining, m := false, failures := 0, resync := false, holdOff := none, notice := some .lineReset }) ∧
      (∀ a, (s.stn a).state = .fenced ∨ (s.stn a).state = .vacant → t.stn a = { s.stn a with
        m := false, failures := 0, resync := false, holdOff := none }) ∧
      (∀ r, t.ring r = { s.ring r with staged := none, held := false, faulted := false }) ∧
      t.fetch.rotation = none ∧ t.fetch.windows = s.fetch.windows ∧
      t.post = { s.post with
        exCredits := s.post.exCredits - ((List.finRange 4).filter fun r => (s.ring r).staged.isSome).length
        unsolCredits := s.post.unsolCredits - s.pollCredit - (if s.res.reserved then 1 else 0) } ∧
      t.arb = { s.arb with
        cursor := 0, cycle := 0, joinPtr := 0, workPtr := 0, recPtr := 0, workCount := 0, recoveryDue := false
        emptyTimer := none } ∧
      t.res = { Resolver.reset with lo := s.res.lo, hi := s.res.hi } ∧
      t.link.phase = .idle ∧ t.link.turn = none ∧ t.link.driverEnable = false ∧ t.link.guardLeft = s.line.guardTime ∧
      t.susp = { s.susp with seq := .none, saved := 0 } ∧ t.port.record = s.port.record ∧ t.port.xfer = s.port.xfer ∧
      t.port.entry = s.port.entry.map (fun e => { e with discard := true }) ∧ t.irq = s.irq ∧ t.line = s.line ∧
      t.pending = s.pending

/-- CQ_HEAD: with value the low 12 bits and d the distance from the head modulo the size: in RUNNING, SUSPENDING, SUSPENDED and RESUMING the write is accepted when d is at most the unconsumed count, or when the ring is full, where d = 0 hands back every position; an accepted write moves the head and lowers the count, a refused one sets INDEX and nothing else. In OFF and CONFIGURING it sets INDEX, in HALTED and RESETTING it does nothing. A value not below the size is held modulo the size (the model's choice, notes/assumptions 10). SQ_TAIL: with value the low 10 bits: outside HALTED and RESETTING the tail of an enabled ring takes a value below the size that is not a withdrawal of an entry in flight, and nothing else changes; any other value sets INDEX and nothing else. In HALTED and RESETTING the write does nothing. -/
def Obligations.RingIndexWritesAreChecked : Prop :=
  (∀ (v : Word) (s : State),
    (s.ctrl.state = .off ∨ s.ctrl.state = .configuring →
      exec (.cqHeadWrite v) s = .next { s with irq := { s.irq with index := true } }) ∧
    (s.ctrl.state = .halted ∨ s.ctrl.state = .resetting → exec (.cqHeadWrite v) s = .next s) ∧
    (s.ctrl.state = .running ∨ s.ctrl.state = .suspending ∨ s.ctrl.state = .suspended ∨ s.ctrl.state = .resuming →
      ∀ x d, x = v.toNat % 4096 % s.post.size → d < s.post.size → (s.post.head + d) % s.post.size = x →
        (s.post.unconsumed < s.post.size → d ≤ s.post.unconsumed → exec (.cqHeadWrite v) s = .next { s with
          post := { s.post with head := x, unconsumed := s.post.unconsumed - d } }) ∧
        (s.post.unconsumed < s.post.size → s.post.unconsumed < d →
          exec (.cqHeadWrite v) s = .next { s with irq := { s.irq with index := true } }) ∧
        (s.post.size ≤ s.post.unconsumed → d ≠ 0 → exec (.cqHeadWrite v) s = .next { s with
          post := { s.post with head := x, unconsumed := s.post.unconsumed - d } }) ∧
        (s.post.size ≤ s.post.unconsumed → d = 0 → exec (.cqHeadWrite v) s = .next { s with
          post := { s.post with head := x, unconsumed := s.post.unconsumed - s.post.size } }))) ∧
  ∀ (r : RingId) (v : Word) (s : State) (x : Nat), x = v.toNat % 1024 →
    (s.ctrl.state = .halted ∨ s.ctrl.state = .resetting → exec (.sqTailWrite r v) s = .next s) ∧
    (s.ctrl.state ≠ .halted → s.ctrl.state ≠ .resetting → (s.ring r).enabled = true → x < (s.ring r).size →
      x ≠ (s.ring r).head ∨ ((s.ring r).staged = none ∧ ∀ e, s.port.entry = some e → e.ring ≠ r) →
      exec (.sqTailWrite r v) s = .next (s.setRing r { s.ring r with tail := x })) ∧
    (s.ctrl.state ≠ .halted → s.ctrl.state ≠ .resetting →
      (s.ring r).enabled = false ∨ (s.ring r).size ≤ x ∨
        (x = (s.ring r).head ∧ ((s.ring r).staged ≠ none ∨ ∃ e, s.port.entry = some e ∧ e.ring = r)) →
      exec (.sqTailWrite r v) s = .next { s with irq := { s.irq with index := true } })

/-- In every state the interrupt output is asserted exactly when one of the five causes is present with its enable set; the CQ cause is present while a record is unconsumed, the other four while their sticky flag is set. Outside RESETTING a write of IRQ_CAUSE clears each sticky cause to which it writes 1 and changes nothing else, and a write of IRQ_ENABLE sets the five enables from bits 4:0 and changes nothing else. In RESETTING both do nothing. In OFF a write of CONFIG_LO or CONFIG_HI sets that half and nothing else; in every other state it changes nothing. A write of IDENT, STATE, CQ_TAIL or SQ_HEAD changes nothing in any state. -/
def Obligations.InterruptsAndPlainRegisters : Prop :=
  (∀ s : State, s.irqOutput = true ↔
    (0 < s.post.unconsumed ∧ s.irq.enable.getLsbD 0 = true) ∨ (s.irq.suspended = true ∧ s.irq.enable.getLsbD 1 = true) ∨
    (s.irq.resumed = true ∧ s.irq.enable.getLsbD 2 = true) ∨ (s.irq.halted = true ∧ s.irq.enable.getLsbD 3 = true) ∨
    (s.irq.index = true ∧ s.irq.enable.getLsbD 4 = true)) ∧
  (∀ (v : Word) (s : State),
    (s.ctrl.state ≠ .resetting →
      exec (.irqCauseWrite v) s = .next { s with irq := { s.irq with
        suspended := s.irq.suspended && !v.getLsbD 1, resumed := s.irq.resumed && !v.getLsbD 2,
        halted := s.irq.halted && !v.getLsbD 3, index := s.irq.index && !v.getLsbD 4 } } ∧
      exec (.irqEnableWrite v) s = .next { s with irq := { s.irq with enable := v.extractLsb' 0 5 } }) ∧
    (s.ctrl.state = .resetting → exec (.irqCauseWrite v) s = .next s ∧ exec (.irqEnableWrite v) s = .next s)) ∧
  ∀ (v : Word) (s : State),
    (s.ctrl.state = .off →
      exec (.configAddressWrite .lo v) s = .next { s with ctrl := { s.ctrl with configLo := v } } ∧
      exec (.configAddressWrite .hi v) s = .next { s with ctrl := { s.ctrl with configHi := v } }) ∧
    (s.ctrl.state ≠ .off → ∀ half, exec (.configAddressWrite half v) s = .next s) ∧
    ∀ reg, exec (.ignoredRegisterWrite reg v) s = .next s

/-- Every register read has 0 in the bits Table 12-12 does not assign. CQ_HEAD writes act on bits 11:0, SQ_TAIL writes on bits 9:0, IRQ_CAUSE writes on bits 4:1 alone; IRQ_ENABLE sets the five enables from bits 4:0; a COMMAND code outside Table 12-11, taken whole, is refused; a fault detail from a field check is at most 482 and fits nine bits. -/
def Obligations.RegisterWindowBits : Prop :=
  (∀ (s : State) (r : Reg), s.readReg r &&& ~~~(match r with
    | .ident => 0xFFFFFFFF#32
    | .command => 0#32
    | .state => 0x01FF8737#32
    | .irqCause => 0x1F#32
    | .irqEnable => 0x1F#32
    | .configLo => 0xFFFFFFFF#32
    | .configHi => 0xFFFFFFFF#32
    | .cqHead => 0xFFF#32
    | .cqTail => 0x80000FFF#32
    | .sqTail _ => 0x3FF#32
    | .sqHead0 => 0x3FF#32
    | .sqHead1 => 0x3FF#32
    | .sqHead23 => 0x03FF03FF#32) = 0#32) ∧
  (∀ (v : Word) (s : State), exec (.cqHeadWrite v) s = exec (.cqHeadWrite (v &&& 0xFFF#32)) s) ∧
  (∀ (r : RingId) (v : Word) (s : State), exec (.sqTailWrite r v) s = exec (.sqTailWrite r (v &&& 0x3FF#32)) s) ∧
  (∀ (v : Word) (s : State), exec (.irqCauseWrite v) s = exec (.irqCauseWrite (v &&& 0x1E#32)) s) ∧
  (∀ (v : Word) (s : State), s.ctrl.state ≠ .resetting →
    exec (.irqEnableWrite v) s = .next { s with irq := { s.irq with enable := v.extractLsb' 0 5 } }) ∧
  (∀ (code : Word) (s : State), code.toNat = 0 ∨ 6 < code.toNat →
    exec (.unknownCommand code) s = .next { s with ctrl := { s.ctrl with lastResult := .refused } }) ∧
  (∀ (data : List Byte) (n : Nat), configFailure data = some n → n ≤ 482 ∧ n < 2 ^ 9)

/-- In CONFIGURING, a record of 744 bytes that passes every check puts the controller in RUNNING and loads the line values, schedule and ratios, attention range, IMAGE_BASE, completion ring, as many windows as the count says, each with its base, length and GENERAL read and write, each enabled ring with head, tail and take number 0, and each present station as JOINING with target depth equal to depth and no notice; a disabled ring and an absent station hold power-on values; the guard runs from now and no cause is set. The cursor, the cycle counter, the join, work and recovery pointers and the work count are 0, recovery due is clear, the engine is IDLE, every list and queue is empty and no transaction is in flight. That the items of which R196 does not speak take their power-on values in the same event is read from the rules (notes/assumptions 26). -/
def Obligations.ConfigurationIsLoaded : Prop :=
  ∀ (data : List Byte) (s : State) (n : Nat), s.ctrl.state = .configuring → s.port.config = some n →
    data.length = 744 → configFailure data = none →
    ∃ t, exec (.configReadDone data) s = .next t ∧ t.ctrl = { s.ctrl with state := .running } ∧ t.irq = s.irq ∧
      t.line = { rate := byteAt data 0, guardTime := byteAt data 1, attnWindow := byteAt data 2
                 holdOffTime := fieldAt data 4 2 } ∧
      t.link = { phase := .idle, turn := none, phaseLeft := 0, late := false, guardLeft := byteAt data 1, rx := []
                 driverEnable := false } ∧
      t.arb.schedule.map StationId.addr = (List.range (byteAt data 10)).map (fun k => byteAt data (16 + k)) ∧
      t.arb = { schedule := t.arb.schedule, ratio := byteAt data 3, probeInterval := byteAt data 6
                attnInterval := byteAt data 7, cursor := 0, cycle := 0#32, joinPtr := 0, workPtr := 0, recPtr := 0
                workCount := 0, recoveryDue := false, emptyTimer := none } ∧
      t.res = { lo := byteAt data 8, hi := byteAt data 9, stack := [], latched := none, reserved := false, step := .none } ∧
      t.susp = { imageBase := fieldAt data 80 8, seq := .none, saved := 0 } ∧
      t.post = { Poster.reset with base := fieldAt data 88 8, size := fieldAt data 96 2 } ∧ t.store = Store.reset ∧
      (∀ i, t.xfer i = none) ∧ t.port = { config := none, entry := none, xfer := t.port.xfer, record := none, image := none } ∧
      t.pending = s.pending ∧ t.fetch.rotation = none ∧ t.fetch.windows.length = byteAt data 11 ∧
      (∀ w, w < byteAt data 11 → t.fetch.windows[w]? = some {
        base := fieldAt data (168 + 16 * w) 8, length := fieldAt data (176 + 16 * w) 4
        genRead := byteAt data (180 + 16 * w) == 1, genWrite := byteAt data (181 + 16 * w) == 1 }) ∧
      (∀ r : RingId, byteAt data (104 + 16 * r.val) = 1 → t.ring r = { Ring.reset with
        enabled := true, base := fieldAt data (112 + 16 * r.val) 8, size := fieldAt data (108 + 16 * r.val) 2
        cls := (if byteAt data (105 + 16 * r.val) = 1 then .supervisory else .general)
        prio := (if byteAt data (106 + 16 * r.val) = 1 then .urgent else .normal) }) ∧
      (∀ r : RingId, byteAt data (104 + 16 * r.val) = 0 → t.ring r = Ring.reset) ∧
      (∀ a : StationId, byteAt data (424 + 8 * a.val) = 1 → t.stn a = { Station.reset with
        present := true, state := .joining, timeout := byteAt data (425 + 8 * a.val)
        retryLimit := byteAt data (426 + 8 * a.val), downLimit := byteAt data (427 + 8 * a.val)
        depth := byteAt data (428 + 8 * a.val), targetDepth := byteAt data (428 + 8 * a.val)
        blockSize := byteAt data (429 + 8 * a.val), attnEnabled := byteAt data (430 + 8 * a.val) == 1
        superOnly := byteAt data (431 + 8 * a.val) == 1 }) ∧
      (∀ a : StationId, byteAt data (424 + 8 * a.val) = 0 → t.stn a = Station.reset)

/-- The checks are those of Table 11-3 (ConfigFieldPasses) in ascending order of the field numbers 1 to 482: a record fails at n exactly when field n fails and every lower one passes, and passes when all 482 pass. In CONFIGURING, a record whose first failing field is n halts the controller with CONFIG_BAD and detail n; a bus error halts it with CONFIG_READ and detail 0. In both the HALTED cause is set and no block changes. -/
def Obligations.ConfigurationFaultsHalt : Prop :=
  (∀ data : List Byte, data.length = 744 →
    (∀ n, configFailure data = some n ↔
      (1 ≤ n ∧ n ≤ 482 ∧ ¬ConfigFieldPasses data n ∧ ∀ m, 1 ≤ m → m < n → ConfigFieldPasses data m)) ∧
    (configFailure data = none ↔ ∀ n, 1 ≤ n → n ≤ 482 → ConfigFieldPasses data n)) ∧
  (∀ (s : State) (addr : Nat), s.ctrl.state = .configuring → s.port.config = some addr →
    (∀ data n, data.length = 744 → configFailure data = some n → ∃ t, exec (.configReadDone data) s = .next t ∧
      t.ctrl = { s.ctrl with state := .halted, faultCode := .configBad, faultDetail := n } ∧
      t.irq = { s.irq with halted := true } ∧ t.port = { s.port with config := none } ∧ t.line = s.line ∧
      t.stations = s.stations ∧ t.store = s.store ∧ t.arb = s.arb ∧ t.res = s.res ∧ t.fetch = s.fetch ∧
      t.post = s.post ∧ t.susp = s.susp ∧ t.link.driverEnable = false) ∧
    ∃ t, exec .configReadFault s = .next t ∧
      t.ctrl = { s.ctrl with state := .halted, faultCode := .configRead, faultDetail := 0 } ∧
      t.irq = { s.irq with halted := true } ∧ t.port = { s.port with config := none } ∧ t.line = s.line ∧
      t.stations = s.stations ∧ t.store = s.store ∧ t.arb = s.arb ∧ t.res = s.res ∧ t.fetch = s.fetch ∧
      t.post = s.post ∧ t.susp = s.susp ∧ t.link.driverEnable = false)

/-- Nothing is settled while the empty-cycle timer runs, or at a cursor whose entry is UP. Else the cursor stops at the first UP entry after it in schedule order, wrapping from the last to entry 0; with no UP entry it is back where it began and the empty-cycle timer runs for 128 ct. A wrap ends the poll cycle: the cycle counter rises by one; recovery due is set if R is not 0 and divides it; and if K is not 0 and divides it while no search is active, the attention range is pushed, plain. Nothing else changes. -/
def Obligations.PollCursorSettles : Prop :=
  ∀ (s w : State) (up : Nat → Prop) (n : Nat), n = s.arb.schedule.length → w = s.settleCursor → s.arb.cursor < n →
    (∀ k, up k ↔ ∃ a, s.arb.schedule[(s.arb.cursor + k) % n]? = some a ∧ (s.stn a).state = .up) →
    (s.arb.emptyTimer ≠ none ∨ up 0 → w = s) ∧
    (∀ k wrap, s.arb.emptyTimer = none → (up k ∨ k = n) → k ≤ n → 1 ≤ k → (∀ j, j < k → ¬up j) →
      (wrap ↔ n ≤ s.arb.cursor + k) →
      w.arb.cursor = (s.arb.cursor + k) % n ∧ w.arb.emptyTimer = (if k = n then some 128 else none) ∧
      (¬wrap → w.arb = { s.arb with cursor := w.arb.cursor } ∧ w.res = s.res) ∧
      (wrap → w.arb = { s.arb with
          cursor := w.arb.cursor, emptyTimer := w.arb.emptyTimer, cycle := s.arb.cycle + 1
          recoveryDue := s.arb.recoveryDue ||
            (s.arb.probeInterval != 0 && (s.arb.cycle + 1).toNat % s.arb.probeInterval == 0) } ∧
        w.res = { s.res with stack :=
          if s.arb.attnInterval ≠ 0 ∧ (s.arb.cycle + 1).toNat % s.arb.attnInterval = 0 ∧ s.res.stack = [] ∧
              s.res.latched = none ∧ s.res.step = .none then [{ lo := s.res.lo, hi := s.res.hi, second := false }]
          else s.res.stack }) ∧
      w = { s with arb := w.arb, res := w.res })

/-- In RUNNING with the link engine IDLE and no turn, ARBITER_CHOICE answers a state in which the guard has elapsed, every list, the post list, rings, windows, port and every station but its hold-off count are as before, and either no turn began and no slot changed, or one turn is in its first try: its frame is on the line under driver-enable for 6 + LENGTH ct. Whatever turn begins, the unconsumed records plus the reserved credits stay within the completion ring's size, the unsolicited credits within four, and nothing else of the poster changes. That the choice passes what was left of the guard, and the hold-off counts with it, is the model's choice (notes/assumptions 3). -/
def Obligations.ChoiceBeginsAtMostOneTurn : Prop :=
  (∀ s : State, s.ctrl.state = .running → s.link.phase = .idle → s.link.turn = none → s.link.driverEnable = false →
    ∃ t, exec .arbiterChoice s = .next t ∧ t.ctrl = s.ctrl ∧ t.irq = s.irq ∧ t.line = s.line ∧ t.fetch = s.fetch ∧
      t.susp = s.susp ∧ t.port = s.port ∧ t.pending = s.pending ∧ t.store.lists = s.store.lists ∧
      t.store.safeList = s.store.safeList ∧ t.store.barriers = s.store.barriers ∧
      t.store.followers = s.store.followers ∧ t.store.postList = s.store.postList ∧ t.link.guardLeft = 0 ∧
      (∀ a, t.stn a = { s.stn a with holdOff := timerAfter s.link.guardLeft (s.stn a).holdOff }) ∧
      ((t.link.turn = none ∧ t.link.phase = .idle ∧ t.link.driverEnable = false ∧ t.store = s.store) ∨
        ∃ u, t.link.turn = some u ∧ t.link.phase = .sending ∧ t.link.driverEnable = true ∧ u.tries = 1 ∧ 1 ≤ u.allowed ∧
          t.link.phaseLeft = 6 + u.image.payload.length)) ∧
  ∀ s t : State, s.ctrl.state = .running → s.link.phase = .idle → exec .arbiterChoice s = .next t →
    (s.post.unconsumed + (s.post.exCredits + s.post.unsolCredits + s.post.writeCredit) ≤ s.post.size →
      t.post.unconsumed + (t.post.exCredits + t.post.unsolCredits + t.post.writeCredit) ≤ t.post.size) ∧
    (s.post.unsolCredits ≤ 4 → t.post.unsolCredits ≤ 4) ∧
    t.post = { s.post with unsolCredits := t.post.unsolCredits }

/-- In RUNNING with the engine IDLE: a SAFE list head begins its SAFE turn to address 0 with no listen period and one try, and no arbiter pointer or count changes. With an empty SAFE list, the first station after the join pointer that is JOINING, or UP with RESYNC set, gets a CLEAR turn, and the join pointer is set. With neither, the eligible urgent head that was taken earliest begins its exchange turn and sets the consecutive-work count to 0. A turn to one station carries a frame with the station's M (in a sequenced kind), has its T as start limit and, but for a recovery probe, its retry limit plus one tries; an exchange's slot takes try count 1, begun set, outcome-unknown clear. -/
def Obligations.ChoiceTakesSafeRepairUrgent : Prop :=
  ∀ s : State, s.ctrl.state = .running → s.link.phase = .idle →
    (∀ i rest, s.store.safeList = i :: rest → ∃ t u, exec .arbiterChoice s = .next t ∧ Began t u ∧
      u.purpose = .safe i ∧ u.kind = .safe ∧ u.image.address = 0#8 ∧ u.image.control = 6#8 ∧ u.image.payload = [] ∧
      u.startLimit = none ∧ u.allowed = 1 ∧ u.tries = 1 ∧
      t.slot i = { s.slot i with tries := 1, unknown := false, begun := true } ∧
      (∀ j, j ≠ i → t.slot j = s.slot j) ∧ t.arb.joinPtr = s.arb.joinPtr ∧ t.arb.workPtr = s.arb.workPtr ∧
      t.arb.recPtr = s.arb.recPtr ∧ t.arb.workCount = s.arb.workCount ∧ t.post = s.post) ∧
    (s.store.safeList = [] → ∀ due : StationId → Prop,
      (∀ b, due b ↔ (s.stn b).state = .joining ∨ ((s.stn b).state = .up ∧ (s.stn b).resync = true)) →
      (∀ a, FirstAfter s.arb.joinPtr due a → ∃ t u, exec .arbiterChoice s = .next t ∧ Began t u ∧
        u.purpose = .linkClear a ∧ TurnTo s u a .clear false [] ((s.stn a).retryLimit + 1) ∧
        t.arb.joinPtr = a.val + 1 ∧ t.arb.workPtr = s.arb.workPtr ∧ t.arb.recPtr = s.arb.recPtr ∧
        t.arb.workCount = s.arb.workCount ∧ t.store = s.store ∧ t.post = s.post) ∧
      ((∀ b, ¬due b) → ∀ a i, s.eligible a i → (s.slot i).urgent = true →
        (∀ b j, s.eligible b j → (s.slot j).urgent = true → j ≠ i → (s.slot i).order < (s.slot j).order) →
        (∀ b, s.eligible b i → b = a) →
        ∃ t u, exec .arbiterChoice s = .next t ∧ ExchangeBegun s t u a i ∧ t.arb.workCount = 0 ∧
          t.arb.joinPtr = s.arb.joinPtr ∧ t.arb.workPtr = s.arb.workPtr ∧ t.arb.recPtr = s.arb.recPtr ∧
          t.store.lists = s.store.lists ∧ t.post = s.post))

/-- In RUNNING with the engine IDLE, no SAFE exchange, no CLEAR due and no eligible urgent head, the cursor settled (PollCursorSettles): a latch at an UP station begins its confirm POLL; without a latch (or with one whose station went DOWN, FENCED or VACANT, which is dropped) a range on the stack begins its CALL under a new credit, A as start limit, one try, or with no credit free empties the stack. Where neither begins, the first station after the work pointer with an eligible normal head begins its turn, the work count raised if a probe or a poll is due; but with no such head, or with the count at W and a probe or poll due, the first DOWN station after the recovery pointer gets a probe of one try if recovery is due, else the station at the cursor gets its poll under a new credit, the cursor moved on. A search begun by this settling is offered in this same choice (the model's choice, notes/assumptions 30), a credit that a dropped latch returns counts at once (notes/assumptions 37), the choice passes what is left of the guard (notes/assumptions 3), and recovery due stays where nothing is due (notes/assumptions 24). -/
def Obligations.ChoiceTakesAttentionWorkPoll : Prop :=
  ∀ s w : State, s.ctrl.state = .running → s.link.phase = .idle → s.store.safeList = [] →
    (∀ b, (s.stn b).state ≠ .joining ∧ ¬((s.stn b).state = .up ∧ (s.stn b).resync = true)) → (∀ b j, s.eligible b j → (s.slot j).urgent = false) →
    w = (s.elapse s.link.guardLeft).settleCursor →
    (∀ a, w.res.latched = some a → (s.stn a).state = .up → ∃ t u, exec .arbiterChoice s = .next t ∧ Began t u ∧
      u.purpose = .confirm a ∧ TurnTo s u a .poll false [] ((s.stn a).retryLimit + 1) ∧
      t.res = { w.res with step := .confirm } ∧ t.post = s.post ∧ t.store = s.store ∧ t.arb = w.arb) ∧
    (∀ v : State, (w.res.latched = none ∧ v = w) ∨ (∃ a, w.res.latched = some a ∧ (s.stn a).state ≠ .up ∧
        v = { w with
          res := { w.res with latched := none, reserved := false }
          post := { s.post with unsolCredits := s.post.unsolCredits - (if w.res.reserved then 1 else 0) } }) →
      (∀ r rest, w.res.stack = r :: rest → v.creditFree → v.post.unsolCredits < 4 → ∃ t u, exec .arbiterChoice s = .next t ∧ Began t u ∧
        u.purpose = .call r.lo r.hi ∧ u.kind = .call ∧ u.image.address = 0#8 ∧ u.image.control = 7#8 ∧
        u.image.payload = [BitVec.ofNat 8 r.lo, BitVec.ofNat 8 r.hi] ∧ u.startLimit = some s.line.attnWindow ∧
        u.allowed = 1 ∧ u.tries = 1 ∧ t.res = { v.res with stack := rest, reserved := true, step := .call r } ∧
        t.post = { v.post with unsolCredits := v.post.unsolCredits + 1 } ∧ t.store = s.store ∧ t.arb = w.arb) ∧
      ∀ (x : State) (due : Prop) (work : StationId → Prop), (w.res.stack = [] ∧ x = v) ∨ (w.res.stack ≠ [] ∧
        ¬(v.creditFree ∧ v.post.unsolCredits < 4) ∧ x = { v with res := { v.res with stack := [] } }) →
      (due ↔ x.probeIsDue ∨ ∃ a, x.pollIsDue a) → (∀ a, work a ↔ ∃ i, s.eligible a i) →
      (∀ a i, FirstAfter s.arb.workPtr work a → s.eligible a i → ¬(due ∧ s.arb.workCount = s.arb.ratio) →
        ∃ t u, exec .arbiterChoice s = .next t ∧ ExchangeBegun s t u a i ∧ t.post = x.post ∧ t.res = x.res ∧
          (due → t.arb = { w.arb with workPtr := a.val + 1, workCount := s.arb.workCount + 1 }) ∧
          (¬due → t.arb = { w.arb with workPtr := a.val + 1 })) ∧
      ((∀ a, ¬work a) ∨ s.arb.workCount = s.arb.ratio →
        (∀ a, w.arb.recoveryDue = true → FirstAfter s.arb.recPtr (fun b => (s.stn b).state = .down) a →
          ∃ t u, exec .arbiterChoice s = .next t ∧ Began t u ∧ u.purpose = .recovery a ∧ TurnTo s u a .probe false [] 1 ∧
            t.arb = { w.arb with recPtr := a.val + 1, recoveryDue := false, workCount := 0 } ∧ t.post = x.post ∧
            t.store = s.store ∧ t.res = x.res) ∧
        (∀ a, ¬x.probeIsDue → x.pollIsDue a → ∃ t u, exec .arbiterChoice s = .next t ∧ Began t u ∧
          u.purpose = .poll a ∧ TurnTo s u a .poll false [] ((s.stn a).retryLimit + 1) ∧
          t.post = { x.post with unsolCredits := x.post.unsolCredits + 1 } ∧ t.store = s.store ∧ t.arb.workCount = 0 ∧
          (w.arb.cursor + 1 < w.arb.schedule.length →
            t.arb = { w.arb with workCount := 0, recoveryDue := false, cursor := w.arb.cursor + 1 } ∧ t.res = x.res) ∧
          (w.arb.schedule.length ≤ w.arb.cursor + 1 → t.arb.cursor = 0 ∧ t.arb.cycle = w.arb.cycle + 1)) ∧
        ((∀ a, ¬work a) → ¬due → exec .arbiterChoice s = .next x)))

/-- At the end of a frame that is no SAFE, driver-enable is released and the engine listens with the turn's start limit; nothing else changes but the counts (in RUNNING the hold-off timers and the empty-cycle timer with the guard, in SUSPENDING the guard alone), since the event passes what was left of the frame (the model's choice, notes/assumptions 3). At the end of a SAFE frame, with no ring HELD, the turn is over, the guard runs from now and the SAFE exchange counts the repeat. With a result fixed already it ends with that result; after the last repeat it ends OK; with repeats remaining and a CANCEL waiting it ends CANCELLED and that CANCEL OK; else it stays in its list. In the other cases a CANCEL among the followers ends TOO_LATE. An exchange that ends leaves the SAFE list and joins the post list; the turn's followers join it behind. No other slot and no other list changes, and no block but the store, the link engine, the timers and the block reads then due. -/
def Obligations.MasterFrameEnds : Prop :=

  ∀ (s : State) (u : Turn) (left : Option Nat → Option Nat), s.works u .sending →
    (∀ x, left x = if s.ctrl.state = .running then x.map fun k => max 1 (k - s.link.phaseLeft) else x) →
    (∀ n, (∀ i, u.purpose ≠ .safe i) → u.startLimit = some n → ∃ t, exec .masterFrameEnd s = .next t ∧
      t.link = { s.link with phase := .listening, phaseLeft := n, late := false, rx := [], driverEnable := false
                             guardLeft := s.link.guardLeft - s.link.phaseLeft } ∧
      (∀ a, t.stn a = { s.stn a with holdOff := left (s.stn a).holdOff }) ∧
      t.arb = { s.arb with emptyTimer := left s.arb.emptyTimer } ∧ t.store = s.store ∧ t.res = s.res ∧ t.post = s.post ∧
      t.fetch = s.fetch ∧ t.port = s.port ∧ t.ctrl = s.ctrl ∧ t.irq = s.irq ∧ t.line = s.line ∧ t.susp = s.susp ∧
      t.pending = s.pending) ∧
    (∀ i x st, u.purpose = .safe i → (s.slot i).kind = some .safe → (s.slot i).station = none → i ∉ s.store.followers →
      s.noneHeld → x = { s.slot i with tries := u.tries, blocks := (s.slot i).blocks + 1 } →
      ∃ t, exec .masterFrameEnd s = .next t ∧ t.link.phase = .idle ∧ t.link.turn = none ∧ t.link.driverEnable = false ∧
        t.link.guardLeft = s.line.guardTime ∧ (∀ a, t.stn a = { s.stn a with holdOff := left (s.stn a).holdOff }) ∧
        t.arb = { s.arb with emptyTimer := left s.arb.emptyTimer } ∧ t.res = s.res ∧ t.post = s.post ∧ t.fetch = s.fetch ∧
        t.ctrl = s.ctrl ∧ t.irq = s.irq ∧ t.line = s.line ∧ t.susp = s.susp ∧ t.pending = s.pending ∧
        t.port = { s.port with xfer := t.port.xfer } ∧ t.store.lists = s.store.lists ∧
        t.store.barriers = s.store.barriers ∧ t.store.followers = [] ∧
        (∀ j, j ≠ i → j ∉ s.store.followers → t.slot j = s.slot j) ∧
        ((s.slot i).result = some st ∨ ((s.slot i).result = none ∧
            (((s.slot i).blocks + 1 = (s.slot i).repeats ∧ st = .ok) ∨
              ((s.slot i).blocks + 1 ≠ (s.slot i).repeats ∧ (s.slot i).cancelBy ≠ none ∧ st = .cancelled))) →
          t.slot i = { x with life := .done, result := some st, held := none } ∧
          t.store.safeList = s.store.safeList.erase i ∧
          t.store.postList = s.store.postList ++ [PostEntry.slot i] ++ s.store.followers.map PostEntry.slot ∧
          FollowersEnd s t (if (s.slot i).result = none ∧ st = .cancelled then .ok else .tooLate)) ∧
        ((s.slot i).result = none → (s.slot i).blocks + 1 ≠ (s.slot i).repeats → (s.slot i).cancelBy = none →
          t.slot i = x ∧ t.store.safeList = s.store.safeList ∧
          t.store.postList = s.store.postList ++ s.store.followers.map PostEntry.slot ∧ FollowersEnd s t .tooLate))


/-- In a listen period of a turn other than a CALL step whose try count is below the tries allowed: the start limit passing before any character, the gap limit passing inside a frame, a character with a framing error, a faulty character (R14) and a correct frame from another address than the station's each lead to the guard before the next try, with the turn record, the store, the poster and every M, failure count and RESYNC as they were. When that guard has elapsed the same image is sent again under driver-enable with the try count raised by one, in the slot of an exchange turn too. -/
def Obligations.FailedTryIsRetried : Prop :=
  ∀ (s : State) (u : Turn),
    (s.works u .listening → (∀ lo hi, u.purpose ≠ .call lo hi) → u.tries < u.allowed →
      ∀ e, (e = .startLimitExpiry ∧ s.link.rx = []) ∨ (e = .gapLimitExpiry ∧ s.link.rx ≠ []) ∨
        (s.link.late = false ∧ e = .garbledReception .framingError) ∨
        (∃ c, s.link.late = false ∧ e = .garbledReception (.character c) ∧ rxProgress (s.link.rx ++ [c]) = .garbled) ∨
        (∃ c a, s.link.late = false ∧ e = .frameReceived c ∧ rxProgress (s.link.rx ++ [c]) = .frame ∧
          u.purpose.station = some a ∧ (RxFrame.ofChars (s.link.rx ++ [c])).station ≠ some a) →
      ∃ t, exec e s = .next t ∧ t.link.phase = .retryGuard ∧ t.link.turn = some u ∧ t.link.rx = [] ∧ t.link.late = false ∧
        t.link.guardLeft = s.line.guardTime ∧ t.link.driverEnable = s.link.driverEnable ∧ t.store = s.store ∧
        t.res = s.res ∧ t.post = s.post ∧ t.fetch = s.fetch ∧
        ∀ a, (t.stn a).m = (s.stn a).m ∧ (t.stn a).failures = (s.stn a).failures ∧ (t.stn a).resync = (s.stn a).resync ∧
          (t.stn a).state = (s.stn a).state) ∧
    (s.works u .retryGuard → ∃ t, exec .retryGuardElapsed s = .next t ∧ t.link.phase = .sending ∧
      t.link.turn = some { u with tries := u.tries + 1 } ∧ t.link.driverEnable = true ∧
      t.link.phaseLeft = 6 + u.image.payload.length ∧ t.post = s.post ∧ t.store.lists = s.store.lists ∧
      (∀ i a, u.purpose = .exchange i a →
        t.slot i = { s.slot i with tries := u.tries + 1 } ∧ ∀ j, j ≠ i → t.slot j = s.slot j) ∧
      ((∀ i a, u.purpose ≠ .exchange i a) → t.store = s.store))

/-- A character is a start bit at space, eight data bits least significant first and a stop bit at mark; sampled so it gives the byte back, with the stop bit at space a framing error, with the start bit at mark noise. In a listen period whose limit has not been exceeded, the event that ten sampled bits are is GARBLED_RECEPTION for a framing error or a faulty character, FRAME_RECEIVED for the last character of a correct frame, else STATION_CHARACTER_RECEIVED, and it runs; the last joins the reception and starts the gap limit of 2 ct. Once the limit has been exceeded no character event can occur before the limit's own, and it stops (notes/assumptions 3 and 4). Outside a listen period: with the receiver enabled (IDLE or between tries in RUNNING, between tries in SUSPENDING) a character moves the moment of last line use to now; while a frame is being sent, in SUSPENDING with no turn, and in every other controller state it is discarded without effect. -/
def Obligations.CharactersHeard : Prop :=
  (∀ c : Byte, charBits c = [false, c.getLsbD 0, c.getLsbD 1, c.getLsbD 2, c.getLsbD 3, c.getLsbD 4, c.getLsbD 5, c.getLsbD 6,
      c.getLsbD 7, true] ∧ sampleChar (charBits c) = .character c ∧
    sampleChar ((charBits c).take 9 ++ [false]) = .framingError ∧ sampleChar (true :: (charBits c).drop 1) = .noise) ∧
  (∀ (s : State) (u : Turn) (c : Byte), s.works u .listening →
    s.lineEvent ((charBits c).take 9 ++ [false]) = some (.garbledReception .framingError) ∧
    (rxProgress (s.link.rx ++ [c]) = .incomplete → s.lineEvent (charBits c) = some (.stationCharacterReceived c)) ∧
    (rxProgress (s.link.rx ++ [c]) = .garbled → s.lineEvent (charBits c) = some (.garbledReception (.character c))) ∧
    (rxProgress (s.link.rx ++ [c]) = .frame → s.lineEvent (charBits c) = some (.frameReceived c)) ∧
    (∀ bits e, s.lineEvent bits = some e → (s.link.late = false → ∃ t, exec e s = .next t) ∧
      (s.link.late = true → exec e s = .fault .noSuchLineEvent)) ∧
    (s.link.late = false → rxProgress (s.link.rx ++ [c]) = .incomplete →
      ∃ t, exec (.stationCharacterReceived c) s = .next t ∧ t.link.rx = s.link.rx ++ [c] ∧ t.link.phaseLeft = 2 ∧
        t.link.late = false ∧ t.link.phase = .listening ∧ t.link.turn = some u ∧ t.store = s.store ∧ t.post = s.post ∧
        t.port = s.port ∧ t.fetch = s.fetch ∧ t.res = s.res)) ∧
  (∀ s : State, (s.ctrl.state = .running ∧ (s.link.phase = .idle ∨ s.link.phase = .retryGuard)) ∨
      (s.ctrl.state = .suspending ∧ s.link.phase = .retryGuard ∧ s.link.turn ≠ none) →
    (∀ c, s.lineEvent (charBits c) = some .lineActivity) ∧
    ∃ t, exec .lineActivity s = .next t ∧ t.link.guardLeft = s.line.guardTime ∧ t.link.phase = s.link.phase ∧
      t.link.turn = s.link.turn ∧ t.store = s.store ∧ t.post = s.post ∧ t.port = s.port ∧ t.fetch = s.fetch ∧
      t.res = s.res) ∧
  (∀ s : State, s.link.phase = .sending ∨ (s.ctrl.state = .suspending ∧ s.link.turn = none) ∨
      (s.ctrl.state ≠ .running ∧ s.ctrl.state ≠ .suspending) →
    exec .lineActivity s = .next s)

/-- In the listen period of a poll turn or of a confirm POLL: the last try's end by a SILENT or GARBLED event, a frame of another station among them, and every correct frame from the station end the turn, the engine IDLE. A REPORT of 1 to 48 bytes with the turn's M and FRESH clear joins the report queue under the credit held, source POLL or ATTENTION; every other end returns the credit: the poll turn's, or the resolver's reservation. A confirm POLL leaves the resolver without latch, reservation and step; a poll turn leaves the resolver as it was. A NONE or such a REPORT from an UP station, with no ring HELD, makes M the complement of the image's M and failures 0; state, depth, lists and fetcher stay, and the guard runs from now. Every exchange of the station's list that is flagged outcome-unknown loses the flag, and RESYNC is then set; without one, slots and RESYNC stay. -/
def Obligations.PollIsAnswered : Prop :=

  ∀ (s : State) (u : Turn) (a : StationId), s.works u .listening → u.purpose = .poll a ∨ u.purpose = .confirm a →
    u.kind = .poll →
    (∀ e, s.failsTry a e → u.allowed ≤ u.tries → ∃ t, exec e s = .next t ∧ t.link.turn = none ∧ t.link.phase = .idle ∧
      PollCreditReturned s t u a) ∧
    ∀ (c : Byte) (f : RxFrame) (good : Prop), s.link.late = false → rxProgress (s.link.rx ++ [c]) = .frame →
      f = RxFrame.ofChars (s.link.rx ++ [c]) → f.station = some a →
      (good ↔ f.kind = 0xB ∧ 1 ≤ f.payload.length ∧ f.payload.length ≤ 48 ∧ f.m = u.image.m ∧ f.fresh = false) →
      ∃ t, exec (.frameReceived c) s = .next t ∧ t.link.turn = none ∧ t.link.phase = .idle ∧
        t.link.guardLeft = s.line.guardTime ∧ (good → PollReportJoins s t u a f.payload) ∧ (¬good → PollCreditReturned s t u a) ∧
        (good ∨ (f.kind = 0xC ∧ f.payload = [] ∧ f.m = u.image.m ∧ f.fresh = false) → (s.stn a).state = .up → s.noneHeld →
          EntryAfter s t a { s.stn a with m := !u.image.m, failures := 0 } ∧ (t.stn a).depth = (s.stn a).depth ∧ (∀ j, Unflagged s t a j) ∧
          t.store = { s.store with slots := t.store.slots } ∧ t.fetch = s.fetch)


/-- On a WRITE turn of a SEND to an UP station (no follower, no cancel, no fixed result, no ring HELD, no outcome-unknown exchange) answered in step: an ACK counts the block and its size and releases it; without LAST the SEND stays, a normal one behind the urgent entries, and as head it reads its next block, at bytes moved, of the effective block size or what is left; with LAST it ends OK. A NAK BUSY raises the busy count, keeps the block and M, and starts the hold-off timer at H; at 16 the SEND ends STATION_BUSY. A NAK REJECT or UNSUPPORTED ends it REJECTED or UNSUPPORTED with the refused block not counted. But for BUSY, M becomes the complement of the image's M. In all, failures are 0 and the engine is IDLE. That only the leading urgent entries count as the urgent entries behind a head is the model's choice (notes/assumptions 28). -/
def Obligations.SendTurnIsAnswered : Prop :=
  ∀ (s : State) (u : Turn) (i : SlotId) (a : StationId) (h : HeldBlock) (c : Byte) (f : RxFrame) (x : Slot),
    s.hears u i a c f → s.alone i → u.kind = .write → (s.slot i).kind = some .send → (s.slot i).held = some h →
    (s.stn a).state = .up → x = { s.slot i with tries := u.tries } →
    (f.kind = 0x9 → f.payload = [] → ∃ (t : State) (y : Slot), exec (.frameReceived c) s = .next t ∧ TurnOver s t i ∧
      y = { x with bytes := x.bytes + h.form.size, blocks := x.blocks + 1, held := none } ∧
      (t.stn a).m = (!u.image.m) ∧ (t.stn a).failures = 0 ∧ (t.stn a).state = .up ∧
      (h.form.last = true → ExchangeEnds s t i a y .ok) ∧
      (h.form.last = false → ExchangeStays s t i a y ∧
        (s.ctrl.state = .running → s.xfer i = none → (t.list a).head? = some i → (∀ b, b ≠ a → i ∉ s.list b) → ∀ size, size = (match (s.stn a).offered with
            | some o => min (s.stn a).blockSize o
            | none => (s.stn a).blockSize) →
          t.xfer i = some (.read { offset := y.bytes, size := min size (y.len - y.bytes), last := y.len ≤ y.bytes + size }
            (y.buf + y.bytes))))) ∧
    (f.kind = 0xA → f.payload = [1#8] → ∃ t, exec (.frameReceived c) s = .next t ∧ TurnOver s t i ∧
      (t.stn a).m = (s.stn a).m ∧ (t.stn a).failures = 0 ∧ (t.stn a).holdOff = some s.line.holdOffTime ∧
      (x.busy + 1 < 16 → ExchangeStays s t i a { x with busy := x.busy + 1 }) ∧
      (16 ≤ x.busy + 1 → ExchangeEnds s t i a { x with busy := x.busy + 1 } .stationBusy)) ∧
    (∀ st, (f.payload = [2#8] ∧ st = .rejected) ∨ (f.payload = [3#8] ∧ st = .unsupported) → f.kind = 0xA →
      ∃ t, exec (.frameReceived c) s = .next t ∧ TurnOver s t i ∧ ExchangeEnds s t i a x st ∧
        (t.stn a).m = (!u.image.m) ∧ (t.stn a).failures = 0 ∧ (t.stn a).resync = (s.stn a).resync)

/-- On a READ turn of a FETCH to an UP station with no write outstanding (no follower, no cancel, no fixed result, no ring HELD, no outcome-unknown exchange) answered in step by DATA: the frame counts as a block, and a write of the payload, or of its first room-left bytes, starts at offset bytes moved, none for no bytes; bytes moved does not change yet. More bytes than room ends the FETCH OVERRUN; else LAST ends it OK; else a buffer filled exactly, or the 512th frame or a later one (notes/assumptions 21), ends it OVERRUN; else it stays, a normal one behind the urgent entries. A NAK BUSY raises the busy count, at 16 ending it STATION_BUSY, keeps M and starts the hold-off; REJECT and UNSUPPORTED end it so with its progress. But for BUSY, M becomes the complement of the image's M. That only the leading urgent entries count as the urgent entries behind a head is the model's choice (notes/assumptions 28). -/
def Obligations.FetchTurnIsAnswered : Prop :=
  ∀ (s : State) (u : Turn) (i : SlotId) (a : StationId) (c : Byte) (f : RxFrame) (x : Slot),
    s.hears u i a c f → s.alone i → u.kind = .read → (s.slot i).kind = some .fetch → s.xfer i = none →
    (s.stn a).state = .up → x = { s.slot i with tries := u.tries } →
    (∀ (y : Slot) (room : Nat), f.kind = 0xD → f.payload.length ≤ 120 → y = { x with blocks := x.blocks + 1 } →
      room = x.len - x.bytes → ∃ t, exec (.frameReceived c) s = .next t ∧ TurnOver s t i ∧
      (t.stn a).m = (!u.image.m) ∧ (t.stn a).failures = 0 ∧ (t.stn a).state = .up ∧
      t.xfer i = (if f.payload.take room = [] then none else some (.write (x.buf + x.bytes) (f.payload.take room))) ∧
      (room < f.payload.length → ExchangeEnds s t i a y .overrun) ∧
      (f.payload.length ≤ room → f.last = true → ExchangeEnds s t i a y .ok) ∧
      (f.payload.length ≤ room → f.last = false → f.payload.length = room ∨ 512 ≤ y.blocks →
        ExchangeEnds s t i a y .overrun) ∧
      (f.payload.length < room → f.last = false → y.blocks < 512 → ExchangeStays s t i a y)) ∧
    (f.kind = 0xA → f.payload = [1#8] → ∃ t, exec (.frameReceived c) s = .next t ∧ TurnOver s t i ∧
      (t.stn a).m = (s.stn a).m ∧ (t.stn a).failures = 0 ∧ (t.stn a).holdOff = some s.line.holdOffTime ∧
      (x.busy + 1 < 16 → ExchangeStays s t i a { x with busy := x.busy + 1 }) ∧
      (16 ≤ x.busy + 1 → ExchangeEnds s t i a { x with busy := x.busy + 1 } .stationBusy)) ∧
    (∀ st, (f.payload = [2#8] ∧ st = .rejected) ∨ (f.payload = [3#8] ∧ st = .unsupported) → f.kind = 0xA →
      ∃ t, exec (.frameReceived c) s = .next t ∧ TurnOver s t i ∧ ExchangeEnds s t i a x st ∧
        (t.stn a).m = (!u.image.m) ∧ (t.stn a).failures = 0 ∧ t.xfer i = none)

/-- Answered in step by its station, with no follower, cancel, fixed result, HELD ring or outcome-unknown exchange: a QUERY ends OK on a REPORT that fits the capacity, OVERRUN on a longer one, and the report's bytes that fit are written to the buffer, bytes moved 0 until the write ends; it ends OK with bytes moved 0 on NONE; M toggles. A CLEAR ends OK on an ACK with M 0 and RESYNC clear. An IDENT, whatever its M and FRESH, ends a PROBE exchange OK with its fields for the record (a result fixed during the turn stands in place, a CANCEL among the followers ends TOO_LATE), and of a recovery probe it changes no list and no credit; failures become 0 and the offered size is stored; a DOWN station goes to JOINING with no new notice, an UP one to JOINING with notice RESTARTED and hold-off stopped if FRESH is set and else stays UP, a JOINING one stays; FENCED and VACANT ones do not change. A link CLEAR answered ACK without FRESH makes M 0, RESYNC clear and failures 0, and takes a JOINING station to UP with notice JOINED; lists and credits stay. At the end of these PROBE and link turns each exchange then in the station's list loses the flag outcome-unknown, and RESYNC is set in UP and JOINING if one had it. The engine is IDLE and the guard runs. (No ring HELD.) -/
def Obligations.QueryProbeClearAreAnswered : Prop :=
  (∀ (s : State) (u : Turn) (i : SlotId) (a : StationId) (c : Byte) (f : RxFrame) (x : Slot) (k : ExKind),
    s.hears u i a c f → s.alone i → (s.slot i).kind = some k → x = { s.slot i with tries := u.tries } →
    (k = .query → u.kind = .poll → s.xfer i = none → (s.stn a).state = .up →
      (f.kind = 0xB → 1 ≤ f.payload.length → f.payload.length ≤ 48 → ∃ t, exec (.frameReceived c) s = .next t ∧
        TurnOver s t i ∧ (t.stn a).m = (!u.image.m) ∧ (t.stn a).failures = 0 ∧
        ExchangeEnds s t i a { x with bytes := 0 } (if f.payload.length ≤ x.len then .ok else .overrun) ∧
        t.xfer i = (if x.len = 0 then none else some (.write x.buf (f.payload.take x.len)))) ∧
      (f.kind = 0xC → f.payload = [] → ∃ t, exec (.frameReceived c) s = .next t ∧ TurnOver s t i ∧
        (t.stn a).m = (!u.image.m) ∧ (t.stn a).failures = 0 ∧ ExchangeEnds s t i a { x with bytes := 0 } .ok ∧
        t.xfer i = none)) ∧
    (k = .clear → u.kind = .clear → f.kind = 0x9 → f.payload = [] → (s.stn a).state = .up →
      ∃ t, exec (.frameReceived c) s = .next t ∧ TurnOver s t i ∧ ExchangeEnds s t i a x .ok ∧ (t.stn a).m = false ∧
        (t.stn a).resync = false ∧ (t.stn a).failures = 0 ∧ (t.stn a).state = .up)) ∧
  (∀ (s : State) (u : Turn) (i : SlotId) (a : StationId) (c : Byte) (f : RxFrame) (x y : Station), s.works u .listening →
    s.link.late = false → u.kind = .probe → rxProgress (s.link.rx ++ [c]) = .frame → f = RxFrame.ofChars (s.link.rx ++ [c]) →
    f.station = some a → f.kind = 0x8 → f.payload.length = 4 → 8 ≤ byteAt f.payload 3 → byteAt f.payload 3 ≤ 120 →
    s.noneHeld → x = s.stn a →
    (x.state = .up → y = { x with
      failures := 0, offered := some (byteAt f.payload 3), state := (if f.fresh then .joining else .up)
      notice := (if f.fresh then some .restarted else x.notice) }) →
    (x.state = .joining ∨ x.state = .down →
      y = { x with failures := 0, offered := some (byteAt f.payload 3), state := .joining }) →
    (x.state = .fenced ∨ x.state = .vacant → y = x) →
    (u.purpose = .exchange i a → (s.slot i).kind = some .probe → (s.slot i).station = some a → i ∉ s.store.followers →
      (∀ j ∈ (s.list a).erase i, j = i ∨ j ∈ s.store.followers → (s.slot j).unknown = false) →
      ∃ t, exec (.frameReceived c) s = .next t ∧ TurnDone s t ∧ t.post = s.post ∧
        ExchangeEnds s t i a { s.slot i with
          tries := u.tries
          ident := some {
            type := BitVec.ofNat 16 (256 * byteAt f.payload 0 + byteAt f.payload 1)
            version := BitVec.ofNat 8 (byteAt f.payload 2), size := byteAt f.payload 3 } } ((s.slot i).result.getD .ok) ∧
        FollowersEnd s t .tooLate ∧ (∀ j, j ≠ i → j ∉ s.store.followers → Unflagged s t a j) ∧ EntryAfter s t a y) ∧
    (u.purpose = .recovery a → ∃ t, exec (.frameReceived c) s = .next t ∧ TurnDone s t ∧ t.post = s.post ∧ t.res = s.res ∧
      t.store = { s.store with slots := t.store.slots } ∧ (∀ j, Unflagged s t a j) ∧ (t.stn a).depth = x.depth ∧
      EntryAfter s t a y)) ∧
  ∀ (s : State) (u : Turn) (a : StationId) (c : Byte) (f : RxFrame) (x : Station), s.works u .listening →
    s.link.late = false → rxProgress (s.link.rx ++ [c]) = .frame → f = RxFrame.ofChars (s.link.rx ++ [c]) →
    f.station = some a → f.fresh = false → s.noneHeld → u.purpose = .linkClear a → u.kind = .clear → f.kind = 0x9 →
    f.payload = [] → x = s.stn a → x.state = .up ∨ x.state = .joining →
    ∃ t, exec (.frameReceived c) s = .next t ∧ TurnDone s t ∧ t.post = s.post ∧ t.res = s.res ∧
      t.store = { s.store with slots := t.store.slots } ∧ (∀ j, Unflagged s t a j) ∧ (t.stn a).depth = x.depth ∧
      EntryAfter s t a { x with
        failures := 0, m := false, resync := false, state := .up
        notice := (if x.state = .joining then some .joined else x.notice) }


/-- In the listen period of a turn to a station: the end of the last try by silence, a garbled reception or a frame of another station is FAILED; a frame of the station that is malformed or no answer to the turn's kind is UNEXPECTED; a proper answer with FRESH, but on a PROBE turn, is FRESH; one with FRESH clear and a wrong M on a POLL, WRITE or READ turn is OUT_OF_STEP. The engine is then IDLE and the guard runs. An exchange turn ends its exchange NO_RESPONSE, PROTOCOL, STATION_RESTARTED or OUT_OF_STEP (a result fixed during the turn stands in place) with the progress it had, out of its list and posted, followers behind it, a CANCEL among them TOO_LATE. A link CLEAR, recovery probe, poll turn or confirm POLL ends no exchange of its own; the latter two return their credit. Station, UP: failures rise by one for FAILED, RESYNC set if sequenced, and UNEXPECTED, RESYNC set; at D it goes DOWN; the others clear failures and give JOINING with notice OUT_OF_STEP or RESTARTED, RESYNC kept. JOINING: failures rise by one or become 0, and a failed or unexpected CLEAR takes it DOWN (RESYNC as it was, notes/assumptions 17). DOWN, FENCED, VACANT: no change. Going DOWN: notice FAILED, RESYNC clear, hold-off stopped, and after the turn's own exchange every other of the list but the PROBEs ends STATION_DOWN in list order. What then stands in the list loses the flag outcome-unknown, with RESYNC set in UP and JOINING if there was one. (No ring HELD.) -/
def Obligations.LastTryFailsTheExchange : Prop :=

  ∀ (s : State) (u : Turn) (a : StationId) (e : Instr) (o : TurnOutcome) (x y : Station), s.works u .listening →
    u.purpose.station = some a → u.kind ≠ .safe → u.kind ≠ .call → s.turnFails u a e o → s.noneHeld → x = s.stn a →
    FailsTo x y u.kind o →
    (∀ i k st, u.purpose = .exchange i a → (s.slot i).kind = some k → k.usesLine = true → (s.slot i).station = some a →
      i ∉ s.store.followers →
      (o = .failed ∧ st = .noResponse) ∨ (o = .unexpected ∧ st = .protocol) ∨ (o = .fresh ∧ st = .stationRestarted) ∨
        (o = .outOfStep ∧ st = .outOfStep) →
      (¬x.failsDown u.kind o →
        (∀ j ∈ (s.list a).erase i, j = i ∨ j ∈ s.store.followers → (s.slot j).unknown = false) →
        ∃ t, exec e s = .next t ∧ TurnDone s t ∧ t.post = s.post ∧
          ExchangeEnds s t i a { s.slot i with tries := u.tries } ((s.slot i).result.getD st) ∧ FollowersEnd s t .tooLate ∧
          (∀ j, j ≠ i → j ∉ s.store.followers → Unflagged s t a j) ∧ EntryAfter s t a y) ∧
      (x.failsDown u.kind o → s.listSound a → (∀ j ∈ s.store.followers, j ∉ s.list a) →
        ∃ t, exec e s = .next t ∧ TurnDone s t ∧ t.post = s.post ∧
          t.slot i = { s.slot i with
            tries := u.tries, life := .done, result := some ((s.slot i).result.getD st), held := none } ∧
          FollowersEnd s t .tooLate ∧ t.store.followers = [] ∧
          WentDown s t a ((s.list a).erase i)
            (s.store.postList ++ [.slot i] ++ s.store.followers.map PostEntry.slot)
            (fun j => j ≠ i ∧ j ∉ s.store.followers))) ∧
    ((∀ i b, u.purpose ≠ .exchange i b) →
      (¬x.failsDown u.kind o → ∃ t, exec e s = .next t ∧ TurnDone s t ∧ t.store = { s.store with slots := t.store.slots } ∧
        (∀ j, Unflagged s t a j) ∧ (t.stn a).depth = (s.stn a).depth ∧ EntryAfter s t a y ∧ PollCreditReturned s t u a ∧
        (u.purpose = .linkClear a ∨ u.purpose = .recovery a → t.post = s.post ∧ t.res = s.res)) ∧
      (x.failsDown u.kind o → s.listSound a → ∃ t, exec e s = .next t ∧ TurnDone s t ∧
        t.store.followers = s.store.followers ∧ WentDown s t a (s.list a) s.store.postList (fun _ => True) ∧
        PollCreditReturned s t u a ∧
        (u.purpose = .linkClear a ∨ u.purpose = .recovery a → t.post = s.post ∧ t.res = s.res)))


/-- At an UP station: answered sequenced turns toggle the image's M and clear the failures; an answered CLEAR sets M 0 and clears RESYNC; an IDENT stores the offered size, and with FRESH sends the station to JOINING; BUSY starts the hold-off; FAILED and UNEXPECTED raise the failures, set RESYNC (FAILED only for a sequenced kind) and at D send it to DOWN with the purge; OUT_OF_STEP and FRESH send it to JOINING with their notices. A JOINING station joins on an answered CLEAR and goes DOWN with the purge when the CLEAR fails. A DOWN station changes on an IDENT alone, a FENCED or VACANT one never. Other stations stay as they are. That FAILED and UNEXPECTED set no RESYNC in JOINING is read from the rules (notes/assumptions 17). -/
def Obligations.StationOutcomes : Prop :=
  ∀ (s : State) (a : StationId) (k : MKind) (m : Bool) (x : Station), x = s.stn a →
    (x.state = .up →
      (∀ ans fresh, k.sequenced = true →
        s.stationOutcome a k m (.answered ans fresh) = s.setStn a { x with failures := 0, m := !m }) ∧
      (∀ ans fresh, s.stationOutcome a .clear m (.answered ans fresh) =
        s.setStn a { x with failures := 0, m := false, resync := false }) ∧
      (∀ d, s.stationOutcome a .probe m (.answered (.ident d) false) =
        s.setStn a { x with failures := 0, offered := some d.size }) ∧
      (∀ d, s.stationOutcome a .probe m (.answered (.ident d) true) = s.setStn a { x with
        failures := 0, offered := some d.size, state := .joining, holdOff := none, notice := some .restarted }) ∧
      s.stationOutcome a k m .busy = s.setStn a { x with failures := 0, holdOff := some s.line.holdOffTime } ∧
      s.stationOutcome a k m .outOfStep = s.setStn a { x with
        failures := 0, state := .joining, holdOff := none, notice := some .outOfStep } ∧
      s.stationOutcome a k m .fresh = s.setStn a { x with
        failures := 0, state := .joining, holdOff := none, notice := some .restarted } ∧
      (x.failures + 1 < x.downLimit →
        s.stationOutcome a k m .failed = s.setStn a { x with
          failures := x.failures + 1, resync := x.resync || k.sequenced } ∧
        s.stationOutcome a k m .unexpected = s.setStn a { x with failures := x.failures + 1, resync := true }) ∧
      (x.downLimit ≤ x.failures + 1 → s.listSound a → ∀ o, o = .failed ∨ o = .unexpected →
        ∃ t, s.stationOutcome a k m o = t ∧ Purged s t a Slot.isProbe .stationDown ∧
          t.stn a = { x with failures := x.failures + 1, state := .down, resync := false, holdOff := none
                             notice := some .failed, depth := (t.stn a).depth } ∧
          (∀ b, b ≠ a → t.stn b = s.stn b))) ∧
    (x.state = .joining →
      (∀ ans fresh, s.stationOutcome a .clear m (.answered ans fresh) = s.setStn a { x with
        failures := 0, m := false, resync := false, state := .up, notice := some .joined }) ∧
      (∀ ans fresh, k.sequenced = true →
        s.stationOutcome a k m (.answered ans fresh) = s.setStn a { x with failures := 0, m := !m }) ∧
      (∀ d fresh, s.stationOutcome a .probe m (.answered (.ident d) fresh) =
        s.setStn a { x with failures := 0, offered := some d.size }) ∧
      (∀ o, o = .busy ∨ o = .outOfStep ∨ o = .fresh →
        s.stationOutcome a k m o = s.setStn a { x with failures := 0 }) ∧
      (∀ o, o = .failed ∨ o = .unexpected →
        (k ≠ .clear → s.stationOutcome a k m o = s.setStn a { x with failures := x.failures + 1 }) ∧
        (s.listSound a → ∃ t, s.stationOutcome a .clear m o = t ∧ Purged s t a Slot.isProbe .stationDown ∧
          t.stn a = { x with failures := x.failures + 1, state := .down, resync := false, holdOff := none
                             notice := some .failed, depth := (t.stn a).depth } ∧
          (∀ b, b ≠ a → t.stn b = s.stn b)))) ∧
    (x.state = .down →
      (∀ d fresh, s.stationOutcome a .probe m (.answered (.ident d) fresh) = s.setStn a { x with
        failures := 0, offered := some d.size, state := .joining, holdOff := none }) ∧
      (∀ o, k ≠ .probe ∨ (∀ ans fresh, o ≠ .answered ans fresh) → s.stationOutcome a k m o = s)) ∧
    (x.state = .fenced ∨ x.state = .vacant → ∀ o, s.stationOutcome a k m o = s)

/-- A frame names the station whose address plus 80h it carries. From another station it counts as GARBLED. From the addressed station: malformed or not allowed for the kind gives UNEXPECTED; then FRESH, unless the turn is a PROBE, gives FRESH; then a wrong M on a sequenced turn gives OUT_OF_STEP; then NAK BUSY gives BUSY; else ANSWERED. IDENT is allowed for PROBE alone, ACK for CLEAR and WRITE, NAK for WRITE and READ, REPORT and NONE for POLL, DATA for READ, ATTN for CALL. -/
def Obligations.FramesAreJudgedInOrder : Prop :=
  (∀ (f : RxFrame) (a : StationId), f.station = some a ↔ f.address.toNat = 0x80 + a.addr) ∧
  (∀ (k : MKind) (a : StationId) (m : Bool) (f : RxFrame),
    (f.station ≠ some a → judge k a m f = none) ∧
    (f.station = some a →
      (f.answer = none → judge k a m f = some .unexpected) ∧
      ∀ ans, f.answer = some ans →
        (k.allows ans = false → judge k a m f = some .unexpected) ∧
        (k.allows ans = true → f.fresh = true → k ≠ .probe → judge k a m f = some .fresh) ∧
        (k.allows ans = true → f.fresh = false ∨ k = .probe →
          (k.sequenced = true → f.m ≠ m → judge k a m f = some .outOfStep) ∧
          (k.sequenced = false ∨ f.m = m →
            (ans = .nak .busy → judge k a m f = some .busy) ∧
            (ans ≠ .nak .busy → judge k a m f = some (.answered ans f.fresh)))))) ∧
  (∀ k : MKind, (∀ d, k.allows (.ident d) = (k == .probe)) ∧ k.allows .ack = (k == .clear || k == .write) ∧
    (∀ r, k.allows (.nak r) = (k == .write || k == .read)) ∧ (∀ p, k.allows (.report p) = (k == .poll)) ∧
    k.allows .none = (k == .poll) ∧ (∀ p l, k.allows (.data p l) = (k == .read)) ∧ k.allows .attn = (k == .call))

/-- In the listen period of a CALL step over [lo, hi] any end ends the step at once, whatever the try count: the start limit before any character gives SILENT; the gap limit, a framing error, a faulty character and every correct frame other than an ATTN (of no payload) from a station of the range give GARBLED; such an ATTN, whatever its FRESH and M, gives ATTN from it. The engine is IDLE, the guard runs from now, no station changes but its timer and no exchange. SILENT returns the reservation. GARBLED returns it and pushes the upper half and then the lower half of two or more addresses, a plain single address again as second, and of a second one nothing. ATTN latches an UP, attention-enabled station under the reservation, else returns it and flags a STRAY; then the parts of the range above and below the address are pushed, none if empty. A push onto 8 ranges is lost. -/
def Obligations.CallStepIsJudged : Prop :=
  ∀ (s : State) (u : Turn) (lo hi : Nat) (r : SearchRange) (e : Instr) (c : CallResult)
    (push : List SearchRange → SearchRange → List SearchRange),
    s.works u .listening → u.purpose = .call lo hi → s.res.step = .call r → r.lo = lo → r.hi = hi →
    (∀ st x, push st x = if st.length < 8 then x :: st else st) →
    (e = .startLimitExpiry ∧ s.link.rx = [] ∧ c = .silent) ∨ (e = .gapLimitExpiry ∧ s.link.rx ≠ [] ∧ c = .garbled) ∨
    (s.link.late = false ∧ c = .garbled ∧ (e = .garbledReception .framingError ∨
      ∃ x, e = .garbledReception (.character x) ∧ rxProgress (s.link.rx ++ [x]) = .garbled)) ∨
    (∃ x f, s.link.late = false ∧ e = .frameReceived x ∧ rxProgress (s.link.rx ++ [x]) = .frame ∧
      f = RxFrame.ofChars (s.link.rx ++ [x]) ∧
      ((∃ a, f.station = some a ∧ f.kind = 0xE ∧ f.payload = [] ∧ lo ≤ a.val + 1 ∧ a.val + 1 ≤ hi ∧ c = .attn a) ∨
        (¬(∃ a, f.station = some a ∧ f.kind = 0xE ∧ f.payload = [] ∧ lo ≤ a.val + 1 ∧ a.val + 1 ≤ hi) ∧
          c = .garbled))) →
    ∃ t, exec e s = .next t ∧ t.link.phase = .idle ∧ t.link.turn = none ∧ t.link.driverEnable = false ∧
      t.link.guardLeft = s.line.guardTime ∧ t.store = s.store ∧ t.ctrl = s.ctrl ∧ t.fetch = s.fetch ∧
      (∀ a, t.stn a = { s.stn a with holdOff := (t.stn a).holdOff }) ∧ t.res.step = .none ∧ t.res.lo = s.res.lo ∧
      t.res.hi = s.res.hi ∧
      (c = .silent ∨ c = .garbled → t.res.reserved = false ∧ t.res.latched = s.res.latched ∧
        t.post = { s.post with unsolCredits := s.post.unsolCredits - (if s.res.reserved then 1 else 0) }) ∧
      (c = .silent → t.res.stack = s.res.stack) ∧
      (c = .garbled →
        (lo < hi → t.res.stack = push (push s.res.stack { lo := (lo + hi) / 2 + 1, hi := hi, second := false })
          { lo := lo, hi := (lo + hi) / 2, second := false }) ∧
        (hi ≤ lo → r.second = false → t.res.stack = push s.res.stack { lo := lo, hi := hi, second := true }) ∧
        (hi ≤ lo → r.second = true → t.res.stack = s.res.stack)) ∧
      (∀ a, c = .attn a →
        (∀ above, above = (if a.val + 1 < hi then push s.res.stack { lo := a.val + 2, hi := hi, second := false }
            else s.res.stack) →
          t.res.stack = if lo < a.val + 1 then push above { lo := lo, hi := a.val, second := false } else above) ∧
        ((s.stn a).state = .up → (s.stn a).attnEnabled = true →
          t.res.latched = some a ∧ t.res.reserved = s.res.reserved ∧ t.post = s.post) ∧
        ((s.stn a).state ≠ .up ∨ (s.stn a).attnEnabled = false →
          t.res.latched = s.res.latched ∧ t.res.reserved = false ∧
          t.post = { s.post with stray := s.post.stray.set a.val true
                                 unsolCredits := s.post.unsolCredits - (if s.res.reserved then 1 else 0) }))

/-- With the read of a block of the slot in flight: its success in RUNNING gives a running SEND the block, an ended one nothing; in every other state the data is discarded. A bus error ends a running SEND MEMORY_FAULT with its progress: it leaves its list, lowers a depth above target by one and joins the post list; an ended SEND keeps its status. In HALTED and RESETTING the completion reaches no block. Shown with no ring HELD, so that no revalidation follows. -/
def Obligations.BlockReadCompletes : Prop :=
  ∀ (s : State) (i : SlotId) (form : BlockForm) (addr : Nat), s.xfer i = some (.read form addr) →
    (∀ data, data.length = form.size →
      (s.ctrl.state = .running → s.noneHeld → ∃ t, exec (.blockReadDone i data) s = .next t ∧
        ((s.slot i).life = .active → t.xfer i = none ∧
          t.slot i = { s.slot i with held := some { form := form, data := data } }) ∧
        ((s.slot i).life ≠ .active → t.slot i = s.slot i) ∧
        (∀ j, j ≠ i → t.slot j = s.slot j ∧ (s.xfer j ≠ none → t.xfer j = s.xfer j)) ∧
        t.store.lists = s.store.lists ∧ t.store.postList = s.store.postList ∧ t.stations = s.stations ∧ t.post = s.post ∧
        t.fetch = s.fetch ∧ t.link = s.link ∧ t.ctrl = s.ctrl ∧ t.irq = s.irq ∧ t.susp = s.susp) ∧
      (s.ctrl.state ≠ .running → exec (.blockReadDone i data) s = .next (s.setXfer i none))) ∧
    (∀ a, (s.slot i).kind = some .send → (s.slot i).station = some a → (s.slot i).life = .active →
      (s.ctrl.state = .running ∧ s.noneHeld) ∨ s.ctrl.state = .suspending →
      ∃ t, exec (.blockReadFault i) s = .next t ∧
        t.slot i = { s.slot i with life := .done, result := some .memoryFault, held := none } ∧
        (∀ j, j ≠ i → t.slot j = s.slot j) ∧ t.list a = (s.list a).erase i ∧ (∀ b, b ≠ a → t.list b = s.list b) ∧
        t.store.postList = s.store.postList ++ [PostEntry.slot i] ∧ (∀ b, b ≠ a → t.stn b = s.stn b) ∧
        t.stn a = { s.stn a with depth := (s.stn a).depth -
          (if i ∈ s.list a ∧ (s.stn a).targetDepth < (s.stn a).depth then 1 else 0) } ∧
        t.post = s.post ∧ t.fetch = s.fetch ∧ t.link = s.link ∧ t.ctrl = s.ctrl) ∧
    ((s.slot i).life ≠ .active → (s.ctrl.state = .running ∧ s.noneHeld) ∨ s.ctrl.state = .suspending →
      ∃ t, exec (.blockReadFault i) s = .next t ∧ t.store = s.store ∧ t.stations = s.stations ∧ t.post = s.post ∧
        t.fetch = s.fetch ∧ t.link = s.link ∧ t.ctrl = s.ctrl) ∧
    (s.ctrl.state = .halted ∨ s.ctrl.state = .resetting → exec (.blockReadFault i) s = .next (s.setXfer i none))

/-- With a block write of a FETCH or QUERY slot in flight: its success adds its bytes to a FETCH's bytes moved and sets a QUERY's bytes moved to them, whether the exchange runs or has ended. A bus error ends a running FETCH MEMORY_FAULT, which leaves its list and joins the post list, and turns the OK or OVERRUN of an ended exchange into MEMORY_FAULT in its place, a QUERY's bytes moved 0; any other status stays. No bytes are counted. In HALTED and RESETTING neither completion reaches a block. Shown with no ring HELD. -/
def Obligations.BlockWriteCompletes : Prop :=
  ∀ (s : State) (i : SlotId) (addr : Nat) (data : List Byte), s.xfer i = some (.write addr data) →
    (s.slot i).kind = some .fetch ∨ (s.slot i).kind = some .query →
    ((s.ctrl.state = .running ∧ s.noneHeld) ∨ s.ctrl.state = .suspending →
      (∃ t, exec (.blockWriteDone i) s = .next t ∧ t.xfer i = none ∧
        t.slot i = { s.slot i with
          bytes := if (s.slot i).kind = some .query then data.length else (s.slot i).bytes + data.length } ∧ (∀ j, j ≠ i → t.slot j = s.slot j) ∧
        t.store.lists = s.store.lists ∧ t.store.postList = s.store.postList ∧ t.stations = s.stations ∧ t.post = s.post ∧
        t.fetch = s.fetch ∧ t.link = s.link ∧ t.ctrl = s.ctrl) ∧
      (∀ a, (s.slot i).life = .active → (s.slot i).station = some a → ∃ t, exec (.blockWriteFault i) s = .next t ∧
        t.xfer i = none ∧ t.slot i = { s.slot i with life := .done, result := some .memoryFault, held := none } ∧
        (∀ j, j ≠ i → t.slot j = s.slot j) ∧ t.list a = (s.list a).erase i ∧ (∀ b, b ≠ a → t.list b = s.list b) ∧
        t.store.postList = s.store.postList ++ [PostEntry.slot i] ∧ (∀ b, b ≠ a → t.stn b = s.stn b) ∧
        (t.stn a).failures = (s.stn a).failures ∧ (t.stn a).resync = (s.stn a).resync ∧ (t.stn a).m = (s.stn a).m ∧
        t.post = s.post ∧ t.fetch = s.fetch ∧ t.link = s.link) ∧
      ((s.slot i).life = .done → ∃ t, exec (.blockWriteFault i) s = .next t ∧ t.xfer i = none ∧
        ((s.slot i).result = some .ok ∨ (s.slot i).result = some .overrun →
          t.slot i = { s.slot i with
            result := some .memoryFault, bytes := if (s.slot i).kind = some .query then 0 else (s.slot i).bytes }) ∧
        ((s.slot i).result ≠ some .ok → (s.slot i).result ≠ some .overrun → t.slot i = s.slot i) ∧
        (∀ j, j ≠ i → t.slot j = s.slot j) ∧ t.store.lists = s.store.lists ∧ t.store.postList = s.store.postList ∧
        t.stations = s.stations ∧ t.post = s.post)) ∧
    (s.ctrl.state = .halted ∨ s.ctrl.state = .resetting →
      exec (.blockWriteDone i) s = .next (s.setXfer i none) ∧ exec (.blockWriteFault i) s = .next (s.setXfer i none))

/-- In RUNNING with no entry read outstanding and a free credit, ENTRY_READ_START reads the entry at the head of the lowest-numbered eligible URGENT ring and leaves the rotation pointer; with no eligible URGENT ring it reads from the eligible NORMAL ring that comes first in ascending order after the pointer, wrapping from 3 to 0 (from ring 0 with no pointer), and sets the pointer to it. A ring is eligible when it is enabled and not empty, neither HELD nor FAULTED, and nothing of it is staged. The read reserves one exchange credit and is of 32 bytes at base + 32 times head; nothing else changes. With no eligible ring, or outside those conditions, no read can start and the event stops. That a stop is the answer there is the model's choice (notes/assumptions 4). -/
def Obligations.EntryReadChoosesARing : Prop :=
  ∀ (s : State) (eligible : RingId → Prop) (place : RingId → Nat),
    (∀ r, eligible r ↔ (s.ring r).enabled = true ∧ (s.ring r).head ≠ (s.ring r).tail ∧ (s.ring r).held = false ∧
      (s.ring r).faulted = false ∧ (s.ring r).staged = none) →
    (∀ r, place r = match s.fetch.rotation with
      | none => r.val
      | some p => (r.val + 3 - p.val) % 4) →
    (s.ctrl.state = .running → s.port.entry = none →
      s.post.unconsumed + (s.post.exCredits + s.post.unsolCredits + s.post.writeCredit) < s.post.size →
      (∀ r, eligible r → (s.ring r).prio = .urgent → (∀ q, eligible q → (s.ring q).prio = .urgent → r ≤ q) →
        exec .entryReadStart s = .next { s with
          post := { s.post with exCredits := s.post.exCredits + 1 }
          port := { s.port with entry := some { ring := r, index := (s.ring r).head, discard := false,
                                                addr := (s.ring r).base + 32 * (s.ring r).head } } }) ∧
      (∀ r, eligible r → (s.ring r).prio = .normal → (∀ q, eligible q → (s.ring q).prio = .normal ∧ place r ≤ place q) →
        exec .entryReadStart s = .next { s with
          post := { s.post with exCredits := s.post.exCredits + 1 }
          fetch := { s.fetch with rotation := some r }
          port := { s.port with entry := some { ring := r, index := (s.ring r).head, discard := false,
                                                addr := (s.ring r).base + 32 * (s.ring r).head } } })) ∧
    ((∀ r, ¬eligible r) ∨ s.ctrl.state ≠ .running ∨ s.port.entry ≠ none ∨
      s.post.size ≤ s.post.unconsumed + (s.post.exCredits + s.post.unsolCredits + s.post.writeCredit) →
      exec .entryReadStart s = .fault .notStartable)

/-- A kind code of 0 or above 11 is refused INVALID_KIND whatever else the entry holds, and nothing else is. A kind that passes step 1 on a GENERAL ring is refused NOT_PERMITTED when it is CLEAR, SAFE, STATION_SET, FENCE or UNFENCE, or a CANCEL naming another ring, and no other entry is. An entry that passes both and whose kind is not SAFE or BARRIER is refused BAD_STATION for a station field of 0 or above 40, and no other entry is. An entry of a kind permitted on its ring, with a good station where its kind names one, is refused BAD_LENGTH exactly when: the length of a SEND or the capacity of a FETCH lies outside 1 to 4096 or that of a QUERY outside 1 to 48, or the buffer of one of these passes 2^64; the repeat count of a SAFE lies outside 1 to 4; the target ring of a CANCEL is above 3; or any field of a STATION_SET lies outside its range, whatever present holds. The ring's class does not matter. Every other kind passes. An entry that passes step 4 and whose kind is not SAFE or BARRIER is refused STATION_PROTECTED exactly when its ring is GENERAL and its station supervisory-only (of a VACANT station too: the model's choice, notes/assumptions 35); else WINDOW_FAULT exactly when its ring is GENERAL, it is a SEND, FETCH or QUERY, and no one window grants its direction and contains its whole buffer; else as Table 8-8 says of its kind and the station's state, or not at all. A SAFE or BARRIER that passes step 4 is not refused. The bytes of an entry give its fields at the places of Table 12-3, the lowest byte first. (A CANCEL from a GENERAL ring whose target ring is above 3 names no ring of its own and is refused NOT_PERMITTED: the model's choice, notes/assumptions 31.) -/
def Obligations.EntriesAreChecked : Prop :=
  (∀ (s : State) (r : RingId) (e : Entry),
    (s.refusal r e = some .invalidKind ↔ e.kind = 0 ∨ 11 < e.kind) ∧
    (s.refusal r e = some .notPermitted ↔ (s.ring r).cls = .general ∧
      (e.kind = 5 ∨ e.kind = 6 ∨ e.kind = 7 ∨ e.kind = 8 ∨ e.kind = 9 ∨ (e.kind = 10 ∧ e.arg ≠ r.val))) ∧
    (s.refusal r e = some .badStation ↔ 1 ≤ e.kind ∧ e.kind ≤ 11 ∧ e.kind ≠ 6 ∧ e.kind ≠ 11 ∧
      ¬((s.ring r).cls = .general ∧
        (e.kind = 5 ∨ e.kind = 7 ∨ e.kind = 8 ∨ e.kind = 9 ∨ (e.kind = 10 ∧ e.arg ≠ r.val))) ∧
      (e.station = 0 ∨ 40 < e.station))) ∧
  (∀ (s : State) (r : RingId) (e : Entry) (k : ExKind), ExKind.ofCode e.kind = some k →
    ((s.ring r).cls = .supervisory ∨ (k.supervisory = false ∧ (k = .cancel → e.arg = r.val))) →
    (k = .safe ∨ k = .barrier ∨ (1 ≤ e.station ∧ e.station ≤ 40)) →
    (s.refusal r e = some .badLength ↔ match k with
      | .send => ¬(1 ≤ e.len ∧ e.len ≤ 4096 ∧ e.buf + e.len ≤ 2 ^ 64)
      | .fetch => ¬(1 ≤ e.len ∧ e.len ≤ 4096 ∧ e.buf + e.len ≤ 2 ^ 64)
      | .query => ¬(1 ≤ e.len ∧ e.len ≤ 48 ∧ e.buf + e.len ≤ 2 ^ 64)
      | .safe => ¬(1 ≤ e.arg ∧ e.arg ≤ 4)
      | .cancel => ¬e.arg ≤ 3
      | .stationSet => ¬(4 ≤ e.timeout ∧ e.timeout ≤ 255 ∧ e.retryLimit ≤ 7 ∧ 1 ≤ e.downLimit ∧ e.downLimit ≤ 15 ∧
          1 ≤ e.depth ∧ e.depth ≤ 16 ∧ 8 ≤ e.blockSize ∧ e.blockSize ≤ 120 ∧ e.present ≤ 1 ∧ e.attnEnabled ≤ 1 ∧
          e.superOnly ≤ 1)
      | .probe => False
      | .clear => False
      | .fence => False
      | .unfence => False
      | .barrier => False)) ∧
  (∀ (s : State) (r : RingId) (e : Entry) (k : ExKind), ExKind.ofCode e.kind = some k →
    ((s.ring r).cls = .supervisory ∨ (k.supervisory = false ∧ (k = .cancel → e.arg = r.val))) →
    (k = .safe ∨ k = .barrier → s.refusal r e = none ∨ s.refusal r e = some .badLength) ∧
    ∀ (a : StationId) (window protect : Prop), k ≠ .safe → k ≠ .barrier → e.station = a.val + 1 →
      s.refusal r e ≠ some .badLength → (protect ↔ (s.ring r).cls = .general ∧ (s.stn a).superOnly = true) →
      (window ↔ ((s.ring r).cls = .general → k = .send ∨ k = .fetch ∨ k = .query → ∃ w ∈ s.fetch.windows,
        (k = .send → w.genRead = true) ∧ (k ≠ .send → w.genWrite = true) ∧ w.base ≤ e.buf ∧
        e.buf + e.len ≤ w.base + w.length)) →
      (protect → s.refusal r e = some .stationProtected) ∧ (¬protect → ¬window → s.refusal r e = some .windowFault) ∧
      (¬protect → window → s.refusal r e =
        if (s.stn a).state = .down ∧ k ∈ [.send, .fetch, .query, .clear] then some .stationDown
        else if (s.stn a).state = .fenced ∧ k ∈ [.send, .fetch, .query, .probe, .clear, .fence] then some .stationFenced
        else if (s.stn a).state = .vacant ∧ k ≠ .stationSet ∧ k ≠ .cancel then some .stationVacant
        else none)) ∧
  ∀ (data : List Byte) (b : Nat → Nat) (e : Entry), data.length = 32 → (∀ n, b n = (data.getD n 0).toNat) →
    e = Entry.ofBytes data → e.kind = b 0 ∧ e.station = b 1 ∧ e.arg = b 2 ∧
    e.tag.toNat = b 4 + 2 ^ 8 * b 5 + 2 ^ 16 * b 6 + 2 ^ 24 * b 7 ∧
    e.buf = b 8 + 2 ^ 8 * b 9 + 2 ^ 16 * b 10 + 2 ^ 24 * b 11 +
      2 ^ 32 * (b 12 + 2 ^ 8 * b 13 + 2 ^ 16 * b 14 + 2 ^ 24 * b 15) ∧
    e.len = b 16 + 2 ^ 8 * b 17 ∧ e.targetTag.toNat = b 8 + 2 ^ 8 * b 9 + 2 ^ 16 * b 10 + 2 ^ 24 * b 11 ∧
    e.setFields = { present := b 8 == 1, timeout := b 9, retryLimit := b 10, downLimit := b 11, depth := b 12
                    blockSize := b 13, attnEnabled := b 14 == 1, superOnly := b 15 == 1 } ∧
    e.present = b 8 ∧ e.timeout = b 9 ∧ e.retryLimit = b 10 ∧ e.downLimit = b 11 ∧ e.depth = b 12 ∧ e.blockSize = b 13 ∧
    e.attnEnabled = b 14 ∧ e.superOnly = b 15


/-- In RUNNING with no ring HELD, an entry that passes steps 1 to 7 and finds a FREE slot is taken. SEND, FETCH, QUERY, PROBE and CLEAR with room in the station's list join it: a normal one at the tail, an urgent one behind the leading urgent entries and behind a head whose turn is in progress. A SAFE joins the SAFE list's tail. A BARRIER joins its ring's barrier list, and as its head ends OK at once when no earlier exchange of the ring is unposted. The slot is the lowest-numbered FREE one and holds the entry's fields; no other slot, no station and no credit changes. The stamp of the order of take in the slot, and the count it is taken from, are the model's own (notes/assumptions 12). That only the leading urgent entries of a list count is the model's choice (notes/assumptions 28). -/
def Obligations.AcceptedEntryIsPlaced : Prop :=
  ∀ (s : State) (e : EntryRead) (data : List Byte) (en : Entry) (k : ExKind) (j : SlotId) (x : Slot),
    s.ctrl.state = .running → s.port.entry = some e → e.discard = false → data.length = 32 → s.noneHeld →
    en = Entry.ofBytes data → s.refusal e.ring en = none → ExKind.ofCode en.kind = some k → (s.slot j).life = .free →
    (∀ q, q < j → (s.slot q).life ≠ .free) → (∀ a, j ∉ s.list a) →
    x = { Slot.reset with
      life := .active, tag := en.tag, ring := e.ring, take := (s.ring e.ring).nextTake, kind := some k
      station := (if k.usesStation then stationOfAddr en.station else none)
      buf := (if k.hasBuffer then en.buf else 0), len := (if k.hasBuffer then en.len else 0)
      urgent := (s.ring e.ring).prio == .urgent, repeats := (if k = .safe then en.arg else 0)
      order := s.store.nextOrder } →
    k.usesLine = true ∨ k = .safe ∨ k = .barrier →
    (k.usesLine = true → ∀ a, stationOfAddr en.station = some a → (s.list a).length < (s.stn a).depth) →
    ∃ t, exec (.entryReadDone data) s = .next t ∧
      t.ring e.ring = { s.ring e.ring with
        nextTake := (s.ring e.ring).nextTake + 1, head := ((s.ring e.ring).head + 1) % (s.ring e.ring).size
        staged := none, held := false } ∧
      (∀ q, q ≠ e.ring → t.ring q = s.ring q) ∧ (∀ q, q ≠ j → t.slot q = s.slot q) ∧ t.stations = s.stations ∧
      t.post = s.post ∧ t.port.entry = none ∧ t.link = s.link ∧ t.store.nextOrder = s.store.nextOrder + 1 ∧
      t.store.followers = s.store.followers ∧
      (k.usesLine = true → ∃ a, stationOfAddr en.station = some a ∧ t.slot j = x ∧
        (∀ b, b ≠ a → t.list b = s.list b) ∧ t.store.postList = s.store.postList ∧
        (x.urgent = false → t.list a = s.list a ++ [j]) ∧
        (x.urgent = true → (∀ h rest, s.list a = h :: rest → s.turnSlot ≠ some h) →
          t.list a = (s.list a).takeWhile s.isUrgent ++ j :: (s.list a).dropWhile s.isUrgent) ∧
        (x.urgent = true → ∀ h rest, s.list a = h :: rest → s.turnSlot = some h →
          t.list a = h :: rest.takeWhile s.isUrgent ++ j :: rest.dropWhile s.isUrgent)) ∧
      (k = .safe → t.slot j = x ∧ t.store.safeList = s.store.safeList ++ [j] ∧ t.store.postList = s.store.postList ∧
        ∀ a, t.list a = s.list a) ∧
      (k = .barrier → (∀ a, t.list a = s.list a) ∧
        (s.barrier e.ring ≠ [] ∨ s.earlierUnposted e.ring x.take = true →
          t.slot j = x ∧ t.barrier e.ring = s.barrier e.ring ++ [j] ∧ t.store.postList = s.store.postList) ∧
        (s.barrier e.ring = [] → s.earlierUnposted e.ring x.take = false →
          t.slot j = { x with life := .done, result := some .ok } ∧ t.barrier e.ring = [] ∧
          t.store.postList = s.store.postList ++ [PostEntry.slot j]))

/-- ENTRY_READ_DONE of an admitted order takes it at once, which needs a FREE slot for a follower alone: with no exchange turn to the station (or for UNFENCE, and a STATION_SET that does not make it VACANT) its effect is applied and a slotless result, OK or UNFENCE's own, joins the post list behind the exchanges it ends; with one, FENCE and the vacating STATION_SET fill the lowest FREE slot as a follower with result OK. FENCE of DOWN, JOINING, UP: FENCED, M 0, failures 0, RESYNC clear, hold-off stopped, notice FENCED, every exchange of its list ends STATION_FENCED but the one in turn, whose result is fixed unless it is; else nothing. UNFENCE of FENCED: DOWN, notice UNFENCED, non-PROBE exchanges end STATION_DOWN; else nothing, NO_EFFECT. STATION_SET writes the fields, depth held up by a longer list; present yes at VACANT: DOWN, CONFIGURED; present no elsewhere: VACANT, VACATED, STATION_VACANT; else only the fields. -/
def Obligations.OrdersActAtTake : Prop :=
  (∀ (s : State) (a : StationId) (x : Station), x = s.stn a → s.listSound a →
    (x.state = .down ∨ x.state = .joining ∨ x.state = .up → ∃ t, s.fence a = t ∧
      Purged s t a (fun _ => false) .stationFenced ∧ (∀ b, b ≠ a → t.stn b = s.stn b) ∧
      (∀ i, s.turnSlotOf a = some i → t.slot i = { s.slot i with
        result := (match (s.slot i).result with
          | none => some .stationFenced
          | some st => some st) }) ∧
      t.stn a = { x with state := .fenced, m := false, failures := 0, resync := false, holdOff := none
                         notice := some .fenced, depth := (t.stn a).depth }) ∧
    (x.state = .fenced ∨ x.state = .vacant → s.fence a = s) ∧
    (x.state = .fenced → ∃ t, s.unfence a = (t, .ok) ∧ Purged s t a Slot.isProbe .stationDown ∧
      (∀ b, b ≠ a → t.stn b = s.stn b) ∧ (∀ i, s.turnSlot = some i → t.slot i = s.slot i) ∧
      t.stn a = { x with state := .down, resync := false, holdOff := none, notice := some .unfenced
                         depth := (t.stn a).depth }) ∧
    (x.state ≠ .fenced → s.unfence a = (s, .noEffect)) ∧
    (∀ (f : SetFields) (y : Station), y = { x with
        present := f.present, timeout := f.timeout, retryLimit := f.retryLimit, downLimit := f.downLimit
        targetDepth := f.depth, depth := max f.depth (s.list a).length, blockSize := f.blockSize
        attnEnabled := f.attnEnabled, superOnly := f.superOnly } →
      ((f.present = true ∧ x.state ≠ .vacant) ∨ (f.present = false ∧ x.state = .vacant) →
        s.stationSet a f = s.setStn a y) ∧
      (f.present = true → x.state = .vacant → ∃ t, s.stationSet a f = t ∧
        Purged (s.setStn a y) t a Slot.isProbe .stationDown ∧ (∀ b, b ≠ a → t.stn b = s.stn b) ∧
        t.stn a = { y with state := .down, m := false, failures := 0, offered := none, resync := false, holdOff := none
                           notice := some .configured, depth := (t.stn a).depth }) ∧
      (f.present = false → x.state ≠ .vacant → ∃ t, s.stationSet a f = t ∧
        Purged (s.setStn a y) t a (fun _ => false) .stationVacant ∧ (∀ b, b ≠ a → t.stn b = s.stn b) ∧
        (∀ i, s.turnSlotOf a = some i → t.slot i = { s.slot i with
          result := (match (s.slot i).result with
            | none => some .stationVacant
            | some st => some st) }) ∧
        t.stn a = { y with state := .vacant, m := false, failures := 0, resync := false, holdOff := none, offered := none
                           notice := some .vacated, depth := (t.stn a).depth }))) ∧
  (∀ (s : State) (e : EntryRead) (data : List Byte) (en : Entry) (k : ExKind) (a : StationId),
    s.admits e data en k → stationOfAddr en.station = some a →
    ∃ t, (k = .fence ∨ k = .unfence ∨ k = .stationSet →
        (((s.turnSlotOf a).isSome = true ∧ (k = .fence ∨ (k = .stationSet ∧ en.present ≠ 1 ∧ (s.stn a).state ≠ .vacant))) →
          ∃ j, s.lowestFree j) →
      exec (.entryReadDone data) s = .next t ∧ Taken s t e.ring) ∧
    (∀ (w : State) (st : Status), (k = .fence ∧ s.turnSlotOf a = none ∧ w = s.fence a ∧ st = .ok) ∨
        (k = .unfence ∧ s.unfence a = (w, st)) ∨
        (k = .stationSet ∧ (s.turnSlotOf a = none ∨ en.present = 1 ∨ (s.stn a).state = .vacant) ∧ st = .ok ∧
          w = s.stationSet a en.setFields) →
      t.stations = w.stations ∧ t.store = { w.store with postList := w.store.postList ++ [slotlessEntry s e.ring en st] }) ∧
    (∀ (j : SlotId) (w : State), s.lowestFree j → (s.turnSlotOf a).isSome = true → s.listSound a → j ∉ s.list a →
      (k = .fence ∧ w = s.fence a) ∨ (k = .stationSet ∧ en.present ≠ 1 ∧ (s.stn a).state ≠ .vacant ∧
        w = s.stationSet a en.setFields) →
      t.stations = w.stations ∧ t.store.lists = w.store.lists ∧ t.store.postList = w.store.postList ∧
      t.store.followers = s.store.followers ++ [j] ∧ (∀ i, i ≠ j → t.slot i = w.slot i) ∧
      t.slot j = { Slot.reset with
        life := .active, tag := en.tag, ring := e.ring, take := (s.ring e.ring).nextTake, kind := some k
        station := some a, urgent := (s.ring e.ring).prio == .urgent, result := some .ok, order := s.store.nextOrder
        fields := (if k = .stationSet then some en.setFields else none) }))

/-- ENTRY_READ_DONE of an admitted CANCEL: its target is the lowest-numbered running slot of the named ring with the named tag that is no follower, CANCEL, STATION_SET or FENCE. With none it ends NOT_FOUND, slotless, and nothing else changes. A target not in turn (in its barrier list at most once) ends CANCELLED with its progress, leaves its list and joins the post list, the CANCEL ends OK behind it, and an outcome-unknown one sets RESYNC on its UP or JOINING station; a barrier head's departure ends the next BARRIER of its ring if its condition holds, ahead of the CANCEL's OK (the model's choice, notes/assumptions 40). A target in turn with no CANCEL yet is marked with the CANCEL's slot, the lowest FREE one, which follows the turn; with no FREE slot the ring is HELD; with a CANCEL already the later one ends TOO_LATE, slotless. At the turn's end (shown for a WRITE answered ACK) a target with more to do ends CANCELLED with the block counted and its CANCEL OK; one that the turn ended keeps its status and the CANCEL ends TOO_LATE; the target is posted first. -/
def Obligations.CancelIsTaken : Prop :=
  (∀ (s : State) (e : EntryRead) (data : List Byte) (en : Entry) (r : RingId), s.admits e data en .cancel →
    ringOfNat en.arg = some r →
    ((∀ i, ¬s.cancellable r en.targetTag i) → ∃ t, exec (.entryReadDone data) s = .next t ∧ Taken s t e.ring ∧
      t.stations = s.stations ∧
      t.store = { s.store with postList := s.store.postList ++ [slotlessEntry s e.ring en .notFound] }) ∧
    (∀ i, s.cancellable r en.targetTag i → (∀ q, q < i → ¬s.cancellable r en.targetTag q) →
      (s.turnSlot = some i → (s.slot i).cancelBy ≠ none → ∃ t, exec (.entryReadDone data) s = .next t ∧
        Taken s t e.ring ∧ t.stations = s.stations ∧
        t.store = { s.store with postList := s.store.postList ++ [slotlessEntry s e.ring en .tooLate] }) ∧
      (∀ j, s.turnSlot = some i → (s.slot i).cancelBy = none → s.lowestFree j → ∃ t,
        exec (.entryReadDone data) s = .next t ∧ Taken s t e.ring ∧ t.stations = s.stations ∧
        t.slot i = { s.slot i with cancelBy := some j } ∧ (∀ q, q ≠ i → q ≠ j → t.slot q = s.slot q) ∧
        t.slot j = { Slot.reset with
          life := .active, tag := en.tag, ring := e.ring, take := (s.ring e.ring).nextTake, kind := some .cancel
          station := stationOfAddr en.station, urgent := (s.ring e.ring).prio == .urgent, targetTag := en.targetTag
          targetRing := r, order := s.store.nextOrder } ∧
        t.store.followers = s.store.followers ++ [j] ∧ t.store.postList = s.store.postList ∧
        t.store.lists = s.store.lists ∧ t.store.safeList = s.store.safeList ∧ t.store.barriers = s.store.barriers) ∧
      (s.turnSlot = some i → (s.slot i).cancelBy = none → (∀ q, (s.slot q).life ≠ .free) → ∃ t,
        exec (.entryReadDone data) s = .next t ∧ t.ring e.ring = { s.ring e.ring with staged := some data, held := true } ∧
        (∀ q, q ≠ e.ring → t.ring q = s.ring q) ∧ t.store = s.store ∧ t.stations = s.stations ∧ t.post = s.post ∧
        t.port.entry = none) ∧
      (s.turnSlot ≠ some i → i ∉ (s.barrier (s.slot i).ring).erase i → ∃ t, exec (.entryReadDone data) s = .next t ∧ Taken s t e.ring ∧
        t.slot i = { s.slot i with life := .done, result := some .cancelled, held := none } ∧
        t.store.followers = s.store.followers ∧
        (∀ a k, (s.slot i).kind = some k → k.usesLine = true → (s.slot i).station = some a → LeavesList s t i a ∧
          (∀ q, q ≠ i → t.slot q = s.slot q) ∧
          t.store.postList = s.store.postList ++ [.slot i, slotlessEntry s e.ring en .ok] ∧
          (∀ b, b ≠ a → t.stn b = s.stn b) ∧ t.stn a = { s.stn a with
            depth := (t.stn a).depth
            resync := (s.stn a).resync ||
              ((s.slot i).unknown && ((s.stn a).state == .up || (s.stn a).state == .joining)) }) ∧
        ((s.slot i).kind = some .safe → (s.slot i).station = none → t.store.safeList = s.store.safeList.erase i ∧
          t.store.lists = s.store.lists ∧ t.stations = s.stations ∧ (∀ q, q ≠ i → t.slot q = s.slot q) ∧
          t.store.postList = s.store.postList ++ [.slot i, slotlessEntry s e.ring en .ok]) ∧
        ((s.slot i).kind = some .barrier → (s.slot i).station = none → t.store.lists = s.store.lists ∧
          t.stations = s.stations ∧ ∀ next, (s.barrier (s.slot i).ring).erase i = next →
          (next = [] → t.barrier (s.slot i).ring = [] ∧
            t.store.postList = s.store.postList ++ [.slot i, slotlessEntry s e.ring en .ok]) ∧
          (∀ j rest, next = j :: rest → j ≠ i → (s.slot j).kind = some .barrier → (s.slot j).ring = (s.slot i).ring →
            (s.earlierUnposted (s.slot i).ring (s.slot j).take = true → t.barrier (s.slot i).ring = next ∧
              t.store.postList = s.store.postList ++ [.slot i, slotlessEntry s e.ring en .ok]) ∧
            (s.earlierUnposted (s.slot i).ring (s.slot j).take = false → t.barrier (s.slot i).ring = next.erase j ∧
              t.slot j = { s.slot j with life := .done, result := some .ok, held := none } ∧
              t.store.postList = s.store.postList ++ [.slot i, .slot j, slotlessEntry s e.ring en .ok])))))) ∧
  (∀ (s : State) (u : Turn) (i j : SlotId) (a : StationId) (h : HeldBlock) (c : Byte) (f : RxFrame) (y : Slot),
    s.hears u i a c f → (s.slot i).cancelBy = some j → s.store.followers = [j] → j ≠ i → j ∉ s.list a →
    (s.slot j).kind = some .cancel → u.kind = .write → (s.slot i).kind = some .send → (s.slot i).held = some h →
    (s.stn a).state = .up → f.kind = 0x9 → f.payload = [] → y = { s.slot i with
      tries := u.tries, bytes := (s.slot i).bytes + h.form.size, blocks := (s.slot i).blocks + 1, held := none } →
    ∃ t, exec (.frameReceived c) s = .next t ∧ TurnOver s t i ∧ (t.stn a).m = (!u.image.m) ∧
      (t.stn a).resync = (s.stn a).resync ∧
      (h.form.last = false → ExchangeEnds s t i a y .cancelled ∧ FollowersEnd s t .ok) ∧
      (h.form.last = true → ExchangeEnds s t i a y .ok ∧ FollowersEnd s t .tooLate))

/-- In RUNNING, with no ring HELD, the completion of an entry read whose entry a step from 1 to 7 refuses takes it: the ring's next take number and head move on by one, nothing stays staged, and one slotless result with the ring, tag, take number, station field and status joins the post list. No slot, list, station or credit changes, and no other ring does. Success outside RUNNING, HALTED and RESETTING stages the entry and nothing else. Success in RUNNING for an entry that passes steps 1 to 7 but finds no FREE slot it needs, or no room in its station's list, stages it and makes the ring HELD: a SEND, FETCH, QUERY, PROBE, CLEAR, SAFE or BARRIER needs a slot, a FENCE, or a STATION_SET that makes its station VACANT, while the station's exchange turn is in progress, and a CANCEL of the exchange in turn that no CANCEL has named yet. A bus error makes the ring FAULTED, returns the credit and flags RING_FAULT. The completion of a read that LINE_RESET discarded returns the credit alone. In HALTED and RESETTING it changes nothing but the read in flight. (No other ring HELD.) -/
def Obligations.EntryReadCompletes : Prop :=
  (∀ (s : State) (e : EntryRead) (data : List Byte) (en : Entry) (st : Status), s.ctrl.state = .running →
    s.port.entry = some e → e.discard = false → data.length = 32 → s.noneHeld → en = Entry.ofBytes data →
    s.refusal e.ring en = some st →
    ∃ t, exec (.entryReadDone data) s = .next t ∧
      t.ring e.ring = { s.ring e.ring with
        nextTake := (s.ring e.ring).nextTake + 1, head := ((s.ring e.ring).head + 1) % (s.ring e.ring).size
        staged := none, held := false } ∧
      (∀ q, q ≠ e.ring → t.ring q = s.ring q) ∧ t.fetch.rotation = s.fetch.rotation ∧
      t.store = { s.store with postList := s.store.postList ++ [.slotless {
        ring := e.ring, tag := en.tag, take := (s.ring e.ring).nextTake, station := en.station, status := st }] } ∧
      t.stations = s.stations ∧ t.post = s.post ∧ t.port.entry = none ∧ t.port.record = s.port.record ∧ t.link = s.link ∧
      t.ctrl = s.ctrl ∧ t.irq = s.irq ∧ t.arb = s.arb ∧ t.res = s.res ∧ t.susp = s.susp) ∧
  ∀ (s : State) (e : EntryRead) (p : Port), s.port.entry = some e → p = { s.port with entry := none } →
    (∀ data : List Byte, data.length = 32 →
      (s.ctrl.state ≠ .running → s.ctrl.state ≠ .halted → s.ctrl.state ≠ .resetting → e.discard = false →
        exec (.entryReadDone data) s =
          .next { s.setRing e.ring { s.ring e.ring with staged := some data } with port := p }) ∧
      (∀ en k, s.ctrl.state = .running → e.discard = false → s.noneHeld → en = Entry.ofBytes data →
        s.refusal e.ring en = none → ExKind.ofCode en.kind = some k →
        ((k.usesLine = true ∨ k = .safe ∨ k = .barrier) ∧ (∀ i, (s.slot i).life ≠ .free)) ∨
          (k.usesLine = true ∧ ∃ a, stationOfAddr en.station = some a ∧ (s.stn a).depth ≤ (s.list a).length) ∨
          ((k = .fence ∨ (k = .stationSet ∧ en.present = 0)) ∧ (∀ i, (s.slot i).life ≠ .free) ∧
            ∃ a, stationOfAddr en.station = some a ∧ (s.turnSlotOf a).isSome = true ∧
              (k = .stationSet → (s.stn a).state ≠ .vacant)) ∨
          (k = .cancel ∧ (∀ i, (s.slot i).life ≠ .free) ∧ ∃ r i, ringOfNat en.arg = some r ∧
            s.cancellable r en.targetTag i ∧ (∀ q, q < i → ¬s.cancellable r en.targetTag q) ∧ s.turnSlot = some i ∧
            (s.slot i).cancelBy = none) →
        ∃ t, exec (.entryReadDone data) s = .next t ∧
          t.ring e.ring = { s.ring e.ring with staged := some data, held := true } ∧
          (∀ q, q ≠ e.ring → t.ring q = s.ring q) ∧ t.fetch.rotation = s.fetch.rotation ∧ t.store = s.store ∧
          t.stations = s.stations ∧ t.post = s.post ∧ t.port.entry = none ∧ t.link = s.link)) ∧
    (s.ctrl.state ≠ .halted → s.ctrl.state ≠ .resetting → e.discard = false → exec .entryReadFault s =
      .next { s.setRing e.ring { s.ring e.ring with faulted := true } with
        port := p
        post := { s.post with exCredits := s.post.exCredits - 1
                              ringFault := s.post.ringFault.set e.ring.val true } }) ∧
    (∀ c, c = .entryReadFault ∨ (∃ data : List Byte, data.length = 32 ∧ c = .entryReadDone data) →
      (s.ctrl.state ≠ .halted → s.ctrl.state ≠ .resetting → e.discard = true → exec c s =
        .next { s with port := p, post := { s.post with exCredits := s.post.exCredits - 1 } }) ∧
      (s.ctrl.state = .halted ∨ s.ctrl.state = .resetting → exec c s = .next { s with port := p }))

/-- In RUNNING with one ring HELD: an event that may release what it waits for (mayRelease: the ends of turns, of block transfers and of record writes, with no entry read outstanding), or the completion of another ring's entry read, does what it does without that ring's entry, its block reads started; and if it freed a slot, took an exchange out of the list of the station the staged entry names, raised that station's depth or ended an exchange turn, it then does what the completion of an entry read with the staged bytes does: the entry is validated from step 1 and taken, refused, or HELD again. Else the ring stays HELD with its entry. With several rings HELD at the end of an exchange turn this happens to each in the order of R148, the last one last. The end of a resume does it to every staged entry, HELD or not, in that order, after its block reads have started (the model's choice of this order, notes/assumptions 33). That rings which a revalidation's own take reaches join those still to be validated is read from the rules (notes/assumptions 19). -/
def Obligations.HeldRingsAreValidatedAgain : Prop :=

  (∀ (s u : State) (r : RingId) (data : List Byte) (e : Instr), s.ctrl.state = .running → (s.ring r).held = true →
    (s.ring r).staged = some data → data.length = 32 →
    (s.port.entry = none ∧ mayRelease e = true) ∨ (∃ q bs, s.port.entry = some q ∧ q.ring ≠ r ∧ e = .entryReadDone bs) →
    exec e (s.unstaged r) = .next u →
    (∀ reached : Prop, (∀ q, q ≠ r → (s.ring q).held = false) →
      (reached ↔ exchangeTurnEnded s u ∨ (∃ i, (s.slot i).life ≠ .free ∧ (u.slot i).life = .free) ∨
        ∃ a k, ExKind.ofCode (Entry.ofBytes data).kind = some k ∧ k.usesStation = true ∧
          stationOfAddr (Entry.ofBytes data).station = some a ∧
          ((∃ i ∈ s.list a, i ∉ u.list a) ∨ (s.stn a).depth < (u.stn a).depth)) →
      (reached → exec e s = exec (.entryReadDone data) (u.reading r)) ∧
      (¬reached → exec e s = .next (u.setRing r (s.ring r)))) ∧
    (exchangeTurnEnded s u → (∀ q, q ≠ r → (s.ring q).held = true → s.before q r) →
      exec e s = exec (.entryReadDone data) (u.reading r))) ∧
  (∀ (s u : State) (r : RingId) (data : List Byte) (n : Nat) (d : List Byte), s.ctrl.state = .resuming →
    s.port.image = some (.spentWrite n d) → (s.ring r).staged = some data → data.length = 32 → s.port.entry = none →
    (∀ q, q ≠ r → (s.ring q).staged ≠ none → s.before q r) → exec .spentWriteDone (s.unstaged r) = .next u →
    exec .spentWriteDone s = exec (.entryReadDone data) (u.reading r))


/-- In RUNNING, SUSPENDING and RESUMING with no record write in progress, a ready head of the post list is written: 64 bytes at base + 64 times tail, kind 1 with the phase, ring, status, station, tag, counts and SQ head in their places; nothing but the write changes. A slot with a block transfer outstanding is not ready. -/
def Obligations.ExchangeRecordIsWrittenFirst : Prop :=
  ∀ (s : State) (rest : List PostEntry),
    s.ctrl.state = .running ∨ s.ctrl.state = .suspending ∨ s.ctrl.state = .resuming → s.port.record = none →
    (∀ i st, s.store.postList = .slot i :: rest → s.xfer i = none → (s.slot i).result = some st →
      ∃ d : List Byte, exec .recordWriteStart s = .next { s with port := { s.port with
          record := some { source := .post, addr := s.post.base + 64 * s.post.tail, data := d } } } ∧
        d.length = 64 ∧ byteAt d 0 = 1 + (if s.post.phase then 128 else 0) ∧ byteAt d 1 = (s.slot i).ring.val ∧
        byteAt d 2 = st.code ∧ byteAt d 3 = ((s.slot i).station.map StationId.addr).getD 0 ∧
        fieldAt d 4 4 = (s.slot i).tag.toNat ∧
        fieldAt d 8 2 = (match (s.slot i).kind with
          | some .send | some .fetch | some .query => (s.slot i).bytes
          | _ => 0) % 2 ^ 16 ∧
        fieldAt d 10 2 = (match (s.slot i).kind with
          | some .send | some .fetch | some .safe => (s.slot i).blocks
          | _ => 0) % 2 ^ 16 ∧
        fieldAt d 12 2 = (s.ring (s.slot i).ring).head % 2 ^ 16 ∧
        byteAt d 14 = (if (s.slot i).unknown = true ∧ (st = .dropped ∨ st = .imageInvalid) then 1 else 0) ∧
        (∀ id, (s.slot i).kind = some .probe → st = .ok → (s.slot i).ident = some id →
          fieldAt d 16 2 = id.type.toNat ∧ byteAt d 18 = id.version.toNat ∧ byteAt d 19 = id.size % 256) ∧
        ((s.slot i).kind ≠ some .probe ∨ st ≠ .ok → (d.drop 16).take 4 = zeros 4) ∧ d.drop 20 = zeros 44) ∧
    (∀ q, s.store.postList = .slotless q :: rest →
      ∃ d : List Byte, exec .recordWriteStart s = .next { s with port := { s.port with
          record := some { source := .post, addr := s.post.base + 64 * s.post.tail, data := d } } } ∧
        d.length = 64 ∧ byteAt d 0 = 1 + (if s.post.phase then 128 else 0) ∧ byteAt d 1 = q.ring.val ∧
        byteAt d 2 = q.status.code ∧ byteAt d 3 = q.station % 256 ∧ fieldAt d 4 4 = q.tag.toNat ∧
        (d.drop 8).take 4 = zeros 4 ∧ fieldAt d 12 2 = (s.ring q.ring).head % 2 ^ 16 ∧ d.drop 14 = zeros 50)

/-- With no ready post-list head, the oldest report is written in RUNNING, SUSPENDING and RESUMING: kind 2, source, station, length and payload. With no report either, in RUNNING with a free credit: the NOTICE of the lowest station with one pending (its state now and last cause), else the RING_FAULT of the lowest ring flagged, else the STRAY of the lowest address flagged; the flag is cleared and the write credit taken. With none of these the event cannot occur and stops (that a stop is the answer is the model's choice, notes/assumptions 4). Nothing else changes. -/
def Obligations.OtherRecordsFollowInOrder : Prop :=
  ∀ s : State, s.port.record = none →
    (s.store.postList = [] ∨ ∃ i rest, s.store.postList = .slot i :: rest ∧ s.xfer i ≠ none) →
    (∀ q rest, s.ctrl.state = .running ∨ s.ctrl.state = .suspending ∨ s.ctrl.state = .resuming →
      s.post.reports = q :: rest → q.payload.length ≤ 48 →
      ∃ d : List Byte, exec .recordWriteStart s = .next { s with port := { s.port with
          record := some { source := .report, addr := s.post.base + 64 * s.post.tail, data := d } } } ∧
        d.length = 64 ∧ byteAt d 0 = 2 + (if s.post.phase then 128 else 0) ∧ byteAt d 1 = q.source.code ∧ byteAt d 2 = 0 ∧
        byteAt d 3 = q.station.addr ∧ byteAt d 4 = q.payload.length ∧ (d.drop 8).take q.payload.length = q.payload ∧
        d.drop (8 + q.payload.length) = zeros (56 - q.payload.length)) ∧
    (s.post.reports = [] → s.ctrl.state = .running →
      s.post.unconsumed + (s.post.exCredits + s.post.unsolCredits + s.post.writeCredit) < s.post.size →
      (∀ a c, (s.stn a).notice = some c → (∀ b, b < a → (s.stn b).notice = none) →
        ∃ d : List Byte, exec .recordWriteStart s = .next { s.setStn a { s.stn a with notice := none } with
            post := { s.post with writeCredit := s.post.writeCredit + 1 }
            port := { s.port with record := some {
              source := .event, addr := s.post.base + 64 * s.post.tail, data := d } } } ∧
          d = BitVec.ofNat 8 (3 + (if s.post.phase then 128 else 0)) :: 0 :: 0 :: BitVec.ofNat 8 a.addr ::
            BitVec.ofNat 8 (s.stn a).state.code :: BitVec.ofNat 8 c.code :: zeros 58) ∧
      ((∀ a, (s.stn a).notice = none) → ∀ r : RingId, s.post.ringFault[r.val] = true →
        (∀ q : RingId, q < r → s.post.ringFault[q.val] = false) →
        ∃ d : List Byte, exec .recordWriteStart s = .next { s with
            post := { s.post with writeCredit := s.post.writeCredit + 1, ringFault := s.post.ringFault.set r.val false }
            port := { s.port with record := some {
              source := .event, addr := s.post.base + 64 * s.post.tail, data := d } } } ∧
          d = BitVec.ofNat 8 (4 + (if s.post.phase then 128 else 0)) :: 1 :: 0 :: 0 :: BitVec.ofNat 8 r.val :: zeros 59) ∧
      ((∀ a, (s.stn a).notice = none) → (∀ r : RingId, s.post.ringFault[r.val] = false) →
        ∀ a : StationId, s.post.stray[a.val] = true → (∀ b : StationId, b < a → s.post.stray[b.val] = false) →
        ∃ d : List Byte, exec .recordWriteStart s = .next { s with
            post := { s.post with writeCredit := s.post.writeCredit + 1, stray := s.post.stray.set a.val false }
            port := { s.port with record := some {
              source := .event, addr := s.post.base + 64 * s.post.tail, data := d } } } ∧
          d = BitVec.ofNat 8 (4 + (if s.post.phase then 128 else 0)) :: 2 :: 0 :: 0 :: BitVec.ofNat 8 a.addr :: zeros 59)) ∧
    (s.post.reports = [] → s.ctrl.state ≠ .running ∨
      s.post.size ≤ s.post.unconsumed + (s.post.exCredits + s.post.unsolCredits + s.post.writeCredit) ∨
      ((∀ a, (s.stn a).notice = none) ∧ (∀ r : RingId, s.post.ringFault[r.val] = false) ∧
        ∀ a : StationId, s.post.stray[a.val] = false) →
      exec .recordWriteStart s = .fault .notStartable)

/-- Success moves the tail by one modulo size, inverts the phase when the tail passes from size - 1 to 0, raises the unconsumed count and consumes the credit: a post-list slot becomes FREE and leaves the list, a slotless result leaves it, a report leaves the queue, an event returns the write credit. The head of the barrier list of the posted exchange's ring then ends OK, leaves that list and joins the post list, unless an exchange taken earlier from the ring (its take number lower by 1 to 2^31 - 1 modulo 2^32) still holds a slot or a slotless result in the post list; the other barriers wait, the new head too (the model's choice, notes/assumptions 39). A bus error in a state other than HALTED and RESETTING halts with CQ_WRITE and detail 0 and moves nothing. (No ring HELD; the head of that barrier list is a BARRIER of that ring, as the law of slot accounting says.) -/
def Obligations.RecordWriteEnds : Prop :=
  ∀ (s : State) (w : RecordWrite) (p : Poster), s.port.record = some w → p = { s.post with
      tail := (s.post.tail + 1) % s.post.size
      phase := (if s.post.tail + 1 = s.post.size then !s.post.phase else s.post.phase)
      unconsumed := s.post.unconsumed + 1 } →
    (s.ctrl.state ≠ .halted → s.ctrl.state ≠ .resetting → s.noneHeld →
      (∀ i rest, w.source = .post → s.store.postList = .slot i :: rest →
        (∀ j, (s.barrier (s.slot i).ring).head? = some j →
          j ≠ i ∧ (s.slot j).kind = some .barrier ∧ (s.slot j).ring = (s.slot i).ring) →
        ∃ t, exec .recordWriteDone s = .next t ∧ t.post = { p with exCredits := s.post.exCredits - 1 } ∧
          t.slot i = { s.slot i with life := .free } ∧ PostedFrom s t (s.slot i).ring (some i) rest ∧
          t.store.lists = s.store.lists ∧ t.stations = s.stations ∧ t.port.record = none ∧ t.fetch = s.fetch ∧
          t.link = s.link ∧ t.ctrl = s.ctrl) ∧
      (∀ q rest, w.source = .post → s.store.postList = .slotless q :: rest →
        (∀ j, (s.barrier q.ring).head? = some j → (s.slot j).kind = some .barrier ∧ (s.slot j).ring = q.ring) →
        ∃ t, exec .recordWriteDone s = .next t ∧ t.post = { p with exCredits := s.post.exCredits - 1 } ∧
          PostedFrom s t q.ring none rest ∧ t.store.lists = s.store.lists ∧ t.stations = s.stations ∧ t.port.record = none ∧
          t.fetch = s.fetch ∧ t.link = s.link ∧ t.ctrl = s.ctrl) ∧
      (∀ q rest, w.source = .report → s.post.reports = q :: rest → ∃ t, exec .recordWriteDone s = .next t ∧
        t.post = { p with unsolCredits := s.post.unsolCredits - 1, reports := rest } ∧ t.store = s.store ∧
        t.stations = s.stations ∧ t.port.record = none ∧ t.fetch = s.fetch ∧ t.link = s.link ∧ t.ctrl = s.ctrl) ∧
      (w.source = .event → ∃ t, exec .recordWriteDone s = .next t ∧
        t.post = { p with writeCredit := s.post.writeCredit - 1 } ∧ t.store = s.store ∧ t.stations = s.stations ∧
        t.port.record = none ∧ t.fetch = s.fetch ∧ t.link = s.link ∧ t.ctrl = s.ctrl)) ∧
    (s.ctrl.state ≠ .halted → s.ctrl.state ≠ .resetting → ∃ t, exec .recordWriteFault s = .next t ∧
      t.ctrl = { s.ctrl with state := .halted, faultCode := .cqWrite, faultDetail := 0 } ∧
      t.irq = { s.irq with halted := true } ∧ t.link.driverEnable = false ∧ t.link.turn = s.link.turn ∧
      t.link.phase = s.link.phase ∧ t.port = { s.port with record := none } ∧ t.post = s.post ∧ t.store = s.store ∧
      t.stations = s.stations ∧ t.fetch = s.fetch ∧ t.arb = s.arb ∧ t.res = s.res ∧ t.susp = s.susp ∧ t.line = s.line)

/-- The quiet part ends with no turn, entry read or transfer outstanding: held blocks are dropped, the search is emptied with its reservation returned, the drain begins. The drain ends with post list and report queue empty and no record write: the body write at IMAGE_BASE + 64 starts, 320 bytes of station records and 48 for each context, SAFE list first, then station lists, then barrier lists. Then the 64-byte header is written at IMAGE_BASE: VALID, version 1, 40, the count, the take numbers, next-base. Its success frees every slot and empties every list with the credits kept, records the count, and enters SUSPENDED with its cause set. -/
def Obligations.SuspensionWritesTheImage : Prop :=
  ∀ (s : State) (ids : List SlotId),
    ids = s.store.safeList ++ (List.finRange 40).flatMap s.list ++ (List.finRange 4).flatMap s.barrier →
    (∀ m, s.ctrl.state = .suspending → s.susp.seq = .suspending m .quiet → s.link.turn = none → s.port.entry = none →
      (∀ i, s.xfer i = none) → ∃ t, exec .suspendQuiesced s = .next t ∧
        t.susp = { s.susp with seq := .suspending m .drain } ∧ (∀ i, t.slot i = { s.slot i with held := none }) ∧
        t.res = { Resolver.reset with lo := s.res.lo, hi := s.res.hi } ∧
        t.post = { s.post with unsolCredits := s.post.unsolCredits - (if s.res.reserved then 1 else 0) } ∧
        t.store.lists = s.store.lists ∧ t.store.postList = s.store.postList ∧ t.stations = s.stations ∧ t.port = s.port ∧
        t.ctrl = s.ctrl ∧ t.irq = s.irq ∧ t.fetch = s.fetch ∧ t.link = s.link ∧ t.arb = s.arb) ∧
    (∀ m, s.ctrl.state = .suspending → s.susp.seq = .suspending m .drain → s.store.postList = [] → s.post.reports = [] →
      s.port.record = none → ∃ d : List Byte, exec .imageWriteStart s = .next { s with
          susp := { s.susp with seq := .suspending m .image }
          port := { s.port with image := some (.bodyWrite (s.susp.imageBase + 64) d) } } ∧
        d.length = 320 + 48 * ids.length ∧ (∀ a : StationId, (d.drop (8 * a.val)).take 8 = (s.stn a).record) ∧
        ∀ (n : Nat) (h : n < ids.length), (d.drop (320 + 48 * n)).take 48 = s.context (ids[n])) ∧
    (s.ctrl.state ≠ .halted → s.ctrl.state ≠ .resetting →
      (∀ addr d, s.port.image = some (.bodyWrite addr d) → ids.length < 2 ^ 16 → s.susp.imageBase < 2 ^ 64 →
        ∃ h : List Byte, exec .imageWriteDone s = .next { s with
            port := { s.port with image := some (.headerWrite s.susp.imageBase h) } } ∧ h.length = 64 ∧
          fieldAt h 0 4 = 0x4D470001 ∧ byteAt h 4 = 1 ∧ byteAt h 5 = 40 ∧ fieldAt h 6 2 = ids.length ∧
          (∀ r : RingId, fieldAt h (8 + 4 * r.val) 4 = (s.ring r).nextTake.toNat) ∧ fieldAt h 24 8 = s.susp.imageBase) ∧
      (∀ addr d, s.port.image = some (.headerWrite addr d) → ∃ t, exec .imageHeaderWriteDone s = .next t ∧
        t.ctrl = { s.ctrl with state := .suspended } ∧ t.irq = { s.irq with suspended := true } ∧
        t.susp = { s.susp with seq := .none, saved := ids.length } ∧ (∀ i, (t.slot i).life = .free) ∧
        (∀ a, t.list a = []) ∧ (∀ r, t.barrier r = []) ∧ t.store.safeList = [] ∧ t.store.followers = [] ∧
        t.store.postList = [] ∧ t.post = s.post ∧ t.stations = s.stations ∧ t.fetch = s.fetch ∧
        t.port = { s.port with image := none }))

/-- When the header read completes, the first check that fails halts the controller with detail 0: a magic other than VALID, a version other than 1, a station count other than 40, a context count above 64 or other than the saved count give IMAGE_BAD; then a next-base of 0 or no multiple of 4096 gives IMAGE_ALIGN, before any station record or context is read. When all five pass, the four next take numbers are set from the header and the read of the station records starts. Nothing else of the rings, stations or store changes. -/
def Obligations.ImageHeaderIsChecked : Prop :=
  ∀ (s : State) (addr : Nat) (data : List Byte), s.ctrl.state = .resuming → s.port.image = some (.headerRead addr) →
    data.length = 64 →
    (fieldAt data 0 4 ≠ 0x4D470001 ∨ byteAt data 4 ≠ 1 ∨ byteAt data 5 ≠ 40 ∨ 64 < fieldAt data 6 2 ∨
      fieldAt data 6 2 ≠ s.susp.saved → ∃ t, exec (.headerReadDone data) s = .next t ∧
      t.ctrl = { s.ctrl with state := .halted, faultCode := .imageBad, faultDetail := 0 } ∧
      t.irq = { s.irq with halted := true } ∧ t.port = { s.port with image := none } ∧ t.fetch = s.fetch ∧
      t.stations = s.stations ∧ t.store = s.store ∧ t.susp = s.susp ∧ t.post = s.post) ∧
    (fieldAt data 0 4 = 0x4D470001 → byteAt data 4 = 1 → byteAt data 5 = 40 → fieldAt data 6 2 ≤ 64 →
      fieldAt data 6 2 = s.susp.saved →
      (fieldAt data 24 8 = 0 ∨ fieldAt data 24 8 % 4096 ≠ 0 → ∃ t, exec (.headerReadDone data) s = .next t ∧
        t.ctrl = { s.ctrl with state := .halted, faultCode := .imageAlign, faultDetail := 0 } ∧
        t.irq = { s.irq with halted := true } ∧ t.port = { s.port with image := none } ∧ t.fetch = s.fetch ∧
        t.stations = s.stations ∧ t.store = s.store ∧ t.susp = s.susp ∧ t.post = s.post) ∧
      (fieldAt data 24 8 ≠ 0 → fieldAt data 24 8 % 4096 = 0 → ∃ t h, exec (.headerReadDone data) s = .next t ∧
        t.ctrl = s.ctrl ∧ t.irq = s.irq ∧
        t.port = { s.port with image := some (.stationsRead (s.susp.imageBase + 64)) } ∧
        t.susp = { s.susp with seq := .resuming (some h) } ∧ h.nextBase = fieldAt data 24 8 ∧
        h.contexts = fieldAt data 6 2 ∧
        (∀ r : RingId, t.ring r = { s.ring r with
          nextTake := BitVec.ofNat 32 (fieldAt data (8 + 4 * r.val) 4) }) ∧ t.fetch.rotation = s.fetch.rotation ∧
        t.stations = s.stations ∧ t.store = s.store ∧ t.post = s.post))

/-- The first station record that fails a check of Table 10-6 halts with IMAGE_BAD and its address; when all pass, each entry takes its state, M, RESYNC, failures, offered size and depth from its record, the configuration fields stay, and the contexts are read at IMAGE_BASE + 384. The first context that fails an IMAGE_BAD check halts with IMAGE_BAD and 64 plus its number, with no list rebuilt; when all pass, the contexts are rebuilt in order (ContextIsRebuilt), then each depth above its target becomes the larger of target depth and the number of exchanges in the station's list, and the header is written again at IMAGE_BASE with magic SPENT and its named fields as read. The checks are those of ImageChecksAreTheTables. That the bytes no field names are written 0 is notes/assumptions 22, that each stage is one read notes/assumptions 15. -/
def Obligations.ImageStagesAreApplied : Prop :=
  ∀ (s : State) (h : ImageHeader) (data : List Byte), s.ctrl.state = .resuming → s.susp.seq = .resuming (some h) →
    (∀ addr, s.port.image = some (.stationsRead addr) → data.length = 320 →
      (∀ a : StationId, (s.stn a).recordPasses ((data.drop (8 * a.val)).take 8) = false →
        (∀ b, b < a → (s.stn b).recordPasses ((data.drop (8 * b.val)).take 8) = true) →
        ∃ t, exec (.stationRecordsReadDone data) s = .next t ∧
          t.ctrl = { s.ctrl with state := .halted, faultCode := .imageBad, faultDetail := a.addr } ∧
          t.irq = { s.irq with halted := true } ∧ t.stations = s.stations ∧ t.store = s.store ∧
          t.port = { s.port with image := none }) ∧
      ((∀ a : StationId, (s.stn a).recordPasses ((data.drop (8 * a.val)).take 8) = true) →
        ∃ t, exec (.stationRecordsReadDone data) s = .next t ∧ t.ctrl = s.ctrl ∧ t.irq = s.irq ∧ t.store = s.store ∧
          t.fetch = s.fetch ∧ t.susp = s.susp ∧ t.post = s.post ∧
          t.port = { s.port with image := some (.contextsRead (s.susp.imageBase + 384) (48 * h.contexts)) } ∧
          ∀ (a : StationId) (r : List Byte), r = (data.drop (8 * a.val)).take 8 →
            StState.ofCode (byteAt r 0) = some (t.stn a).state ∧
            t.stn a = { s.stn a with
              state := (t.stn a).state, m := byteAt r 1 % 2 == 1, resync := byteAt r 1 / 2 % 2 == 1
              holdOff := (if byteAt r 1 / 4 % 2 = 1 then some (fieldAt r 4 2) else none)
              failures := byteAt r 2, offered := (if byteAt r 3 = 0 then none else some (byteAt r 3))
              notice := (if byteAt r 1 / 8 % 2 = 1 then NoticeCause.ofCode (byteAt r 6) else none)
              depth := byteAt r 7 % 16 + 1 })) ∧
    (∀ (addr : Nat) (cs : List Context) (u : State), s.port.image = some (.contextsRead addr data.length) →
      u = { s with port := { s.port with image := none } } →
      cs = (List.range h.contexts).map (fun k => Context.ofBytes ((data.drop (48 * k)).take 48)) →
      (∀ k, u.contextFailure cs = some k → ∃ t, exec (.contextsReadDone data) s = .next t ∧
        t.ctrl = { s.ctrl with state := .halted, faultCode := .imageBad, faultDetail := 64 + k } ∧
        t.irq = { s.irq with halted := true } ∧ t.stations = s.stations ∧ t.store = s.store ∧
        t.port = { s.port with image := none }) ∧
      (u.contextFailure cs = none → ∃ (t : State) (d : List Byte), exec (.contextsReadDone data) s = .next t ∧
        t.store = (cs.foldl State.rebuildOne u).store ∧
        (∀ (a : StationId) (x : Station), x = (cs.foldl State.rebuildOne u).stn a → t.stn a = { x with
          depth := if (s.stn a).targetDepth < (s.stn a).depth then max (s.stn a).targetDepth (t.list a).length
            else (s.stn a).depth }) ∧ t.ctrl = s.ctrl ∧ t.irq = s.irq ∧
        t.fetch = s.fetch ∧ t.susp = s.susp ∧ t.post = s.post ∧
        t.port = { s.port with image := some (.spentWrite s.susp.imageBase d) } ∧ d.length = 64 ∧
        fieldAt d 0 4 = 0x4D470002 ∧ d.drop 4 = h.bytes.drop 4))

/-- A station record passes exactly when its state is one of the five codes and VACANT exactly at an entry that is not present; its failures are at most 15, below 15 in UP and JOINING; RESYNC is set in UP and JOINING alone; a running hold-off has state UP and remainder 1 to 4096, a stopped one 0; the offered size is absent or 8 to 120 and absent in VACANT; a pending notice has a cause, a clear one 0; the target depth is the entry's and the depth is not below it. The first failing context is the lowest whose kind is not one of the seven, whose ring is above 3 or not enabled, whose station is out of place, which breaks the grouped order, or with which its station is named more often than its depth (counted as they come: the model's choice, notes/assumptions 32). A context is IMAGE_INVALID unless length, bytes moved at most length, blocks, try and busy count, repeats, urgent flag, window and action pass. -/
def Obligations.ImageChecksAreTheTables : Prop :=
  (∀ (x : Station) (r : List Byte), r.length = 8 → 1 ≤ x.targetDepth → x.targetDepth ≤ 16 →
    (x.recordPasses r = true ↔ byteAt r 0 ≤ 4 ∧ (byteAt r 0 = 0 ↔ x.present = false) ∧
      (byteAt r 2 ≤ 15 ∧ (byteAt r 0 = 2 ∨ byteAt r 0 = 3 → byteAt r 2 < 15)) ∧
      (byteAt r 1 / 2 % 2 = 1 → byteAt r 0 = 2 ∨ byteAt r 0 = 3) ∧
      (byteAt r 1 / 4 % 2 = 1 → byteAt r 0 = 3 ∧ 1 ≤ fieldAt r 4 2 ∧ fieldAt r 4 2 ≤ 4096) ∧
      (byteAt r 1 / 4 % 2 = 0 → fieldAt r 4 2 = 0) ∧
      (byteAt r 3 ≠ 0 → 8 ≤ byteAt r 3 ∧ byteAt r 3 ≤ 120 ∧ byteAt r 0 ≠ 0) ∧
      (byteAt r 1 / 8 % 2 = 1 → 1 ≤ byteAt r 6 ∧ byteAt r 6 ≤ 9) ∧ (byteAt r 1 / 8 % 2 = 0 → byteAt r 6 = 0) ∧
      byteAt r 7 / 16 + 1 = x.targetDepth ∧ x.targetDepth ≤ byteAt r 7 % 16 + 1)) ∧
  (∀ (s : State) (cs : List Context) (good : Nat → Prop) (group : Context → Nat),
    (∀ c, group c = if c.kind = 6 then 0 else if c.kind = 11 then 200 + c.ring else 100 + c.station) →
    (∀ n, good n ↔ ∃ (c : Context) (r : RingId), cs[n]? = some c ∧ c.ring = r.val ∧ (s.ring r).enabled = true ∧
      ((1 ≤ c.kind ∧ c.kind ≤ 5 ∧ 1 ≤ c.station ∧ c.station ≤ 40) ∨ ((c.kind = 6 ∨ c.kind = 11) ∧ c.station = 0)) ∧
      (∀ b, 1 ≤ n → cs[n - 1]? = some b → group b ≤ group c) ∧
      ∀ a : StationId, c.station = a.val + 1 → (cs.take (n + 1)).countP (fun d => d.station == c.station) ≤ (s.stn a).depth) →
    (∀ n, s.contextFailure cs = some n ↔ n < cs.length ∧ ¬good n ∧ ∀ m, m < n → good m) ∧
    (s.contextFailure cs = none ↔ ∀ n, n < cs.length → good n)) ∧
  (∀ (s : State) (c : Context) (k : ExKind) (r : RingId),
    (s.contextValid c k r = true ↔ (k = .send ∨ k = .fetch → 1 ≤ c.len ∧ c.len ≤ 4096) ∧
      (k = .query → 1 ≤ c.len ∧ c.len ≤ 48) ∧ c.bytes ≤ c.len ∧ c.blocks ≤ 512 ∧ c.tries ≤ 8 ∧ c.busy ≤ 15 ∧
      (k = .safe → c.blocks < c.repeats) ∧ (c.urgent = true ↔ (s.ring r).prio = .urgent) ∧
      ((s.ring r).cls = .general → k = .send ∨ k = .fetch ∨ k = .query → ∃ w ∈ s.fetch.windows,
        (k = .send → w.genRead = true) ∧ (k ≠ .send → w.genWrite = true) ∧ w.base ≤ c.buf ∧
        c.buf + c.len ≤ w.base + w.length) ∧ c.action ≤ 2))

/-- A context of a known kind and ring takes the lowest FREE slot. One that fails an IMAGE_INVALID check ends IMAGE_INVALID with zero counts; DROP ends it DROPPED with its progress; both set RESYNC on its station if it was outcome-unknown. Else one whose station is VACANT, FENCED, or DOWN for another kind than PROBE, ends with that status. Else RESTART of a SEND or FETCH joins the list from the beginning, with RESYNC if it was outcome-unknown. Else it joins as saved; if it is outcome-unknown and the station's M differs from its frame M, the flag is cleared and RESYNC set. RESYNC is set in UP and JOINING alone. A SAFE joins the SAFE list's tail and a BARRIER its ring's barrier list as saved; a BARRIER that becomes the head ends OK at once when no earlier exchange of its ring is unposted (tested as it is placed: the model's choice, notes/assumptions 41). A kind without a buffer has no buffer, length or bytes moved in its slot and a kind other than SAFE no repeat count, whatever the context holds there. The order stamp and its count are the model's own (notes/assumptions 12); that no other check is made, and that such a context's fields are given up, is read from the tables (notes/assumptions 20). -/
def Obligations.ContextIsRebuilt : Prop :=
  (∀ (s : State) (c : Context) (k : ExKind) (r : RingId) (j : SlotId) (x : Slot) (a : StationId) (y : Station),
    c.exKind = some k → ringOfNat c.ring = some r → (s.slot j).life = .free → (∀ q, q < j → (s.slot q).life ≠ .free) →
    k.usesLine = true → stationOfAddr c.station = some a →
    x = { Slot.reset with
      life := .active, tag := c.tag, ring := r, take := c.take, kind := some k, station := some a
      buf := (if k.hasBuffer then c.buf else 0), len := (if k.hasBuffer then c.len else 0), urgent := c.urgent, begun := c.begun
      bytes := (if k.hasBuffer then c.bytes else 0), blocks := c.blocks, tries := c.tries, busy := c.busy
      unknown := c.unknown, repeats := 0, order := s.store.nextOrder } →
    y = { s.stn a with resync := (s.stn a).resync || ((s.stn a).state == .up || (s.stn a).state == .joining) } →
    ∃ t, s.rebuildOne c = t ∧ (∀ q, q ≠ j → t.slot q = s.slot q) ∧ (∀ b, b ≠ a → t.stn b = s.stn b ∧ t.list b = s.list b) ∧
      t.post = s.post ∧ t.store.safeList = s.store.safeList ∧ t.store.nextOrder = s.store.nextOrder + 1 ∧
      (s.contextValid c k r = false →
        t.slot j = { x with bytes := 0, blocks := 0, life := .done, result := some .imageInvalid } ∧
        t.list a = s.list a ∧ t.store.postList = s.store.postList ++ [PostEntry.slot j] ∧
        t.stn a = (if c.unknown then y else s.stn a)) ∧
      (s.contextValid c k r = true → c.action = 2 →
        t.slot j = { x with life := .done, result := some .dropped } ∧ t.list a = s.list a ∧
        t.store.postList = s.store.postList ++ [PostEntry.slot j] ∧ t.stn a = (if c.unknown then y else s.stn a)) ∧
      (s.contextValid c k r = true → c.action ≠ 2 →
        (∀ st, ((s.stn a).state = .vacant ∧ st = .stationVacant) ∨ ((s.stn a).state = .fenced ∧ st = .stationFenced) ∨
            ((s.stn a).state = .down ∧ k ≠ .probe ∧ st = .stationDown) →
          t.slot j = { x with life := .done, result := some st } ∧ t.list a = s.list a ∧
          t.store.postList = s.store.postList ++ [PostEntry.slot j] ∧ t.stn a = s.stn a) ∧
        ((s.stn a).state = .up ∨ (s.stn a).state = .joining ∨ ((s.stn a).state = .down ∧ k = .probe) →
          t.list a = s.list a ++ [j] ∧ t.store.postList = s.store.postList ∧
          (c.action = 1 → k = .send ∨ k = .fetch →
            t.slot j = { x with bytes := 0, blocks := 0, begun := false, unknown := false } ∧
            t.stn a = (if c.unknown then y else s.stn a)) ∧
          (c.action = 0 ∨ (k ≠ .send ∧ k ≠ .fetch) →
            (c.unknown = false ∨ (s.stn a).m = c.frameM → t.slot j = x ∧ t.stn a = s.stn a) ∧
            (c.unknown = true → (s.stn a).m ≠ c.frameM → t.slot j = { x with unknown := false } ∧ t.stn a = y))))) ∧
  (∀ (s : State) (c : Context) (k : ExKind) (r : RingId) (j : SlotId) (x : Slot), c.exKind = some k →
    k = .safe ∨ k = .barrier → ringOfNat c.ring = some r → s.lowestFree j → j ∉ s.barrier r →
    x = { Slot.reset with
      life := .active, tag := c.tag, ring := r, take := c.take, kind := some k, urgent := c.urgent
      begun := c.begun, blocks := c.blocks, tries := c.tries, busy := c.busy, unknown := c.unknown
      repeats := (if k = .safe then c.repeats else 0), order := s.store.nextOrder } →
    ∃ t, s.rebuildOne c = t ∧ (∀ q, q ≠ j → t.slot q = s.slot q) ∧ t.stations = s.stations ∧
      t.store.lists = s.store.lists ∧ t.post = s.post ∧ t.store.nextOrder = s.store.nextOrder + 1 ∧
      (∀ st y, (s.contextValid c k r = false ∧ st = .imageInvalid ∧ y = { x with bytes := 0, blocks := 0 }) ∨
          (s.contextValid c k r = true ∧ c.action = 2 ∧ st = .dropped ∧ y = x) →
        t.slot j = { y with life := .done, result := some st } ∧ t.store.safeList = s.store.safeList ∧
        t.store.barriers = s.store.barriers ∧ t.store.postList = s.store.postList ++ [.slot j]) ∧
      (s.contextValid c k r = true → c.action ≠ 2 →
        (k = .safe → t.slot j = x ∧ t.store.safeList = s.store.safeList ++ [j] ∧ t.store.barriers = s.store.barriers ∧
          t.store.postList = s.store.postList) ∧
        (k = .barrier → t.store.safeList = s.store.safeList ∧ (∀ q, q ≠ r → t.barrier q = s.barrier q) ∧
          (s.barrier r ≠ [] ∨ s.earlierUnposted r c.take = true →
            t.slot j = x ∧ t.barrier r = s.barrier r ++ [j] ∧ t.store.postList = s.store.postList) ∧
          (s.barrier r = [] → s.earlierUnposted r c.take = false →
            t.slot j = { x with life := .done, result := some .ok } ∧ t.barrier r = [] ∧
            t.store.postList = s.store.postList ++ [.slot j]))))

/-- With no entry staged (HeldRingsAreValidatedAgain says what a staged one adds), the success of the SPENT write takes next-base into IMAGE_BASE, sets the saved count to 0 and the RESUMED cause, moves the moment of last line use to now and enters RUNNING; store, stations, rings and credits stay. A bus error of an image read halts with IMAGE_READ, of a body, header or SPENT write with IMAGE_WRITE, detail 0, with every block as it stands. -/
def Obligations.ResumeEnds : Prop :=
  ∀ s : State, s.ctrl.state ≠ .halted → s.ctrl.state ≠ .resetting →
    (∀ addr d h, s.port.image = some (.spentWrite addr d) → s.susp.seq = .resuming (some h) →
      (∀ r, (s.ring r).staged = none) → ∃ t, exec .spentWriteDone s = .next t ∧
        t.ctrl = { s.ctrl with state := .running } ∧ t.irq = { s.irq with resumed := true } ∧
        t.susp = { imageBase := h.nextBase, seq := .none, saved := 0 } ∧
        t.link = { s.link with guardLeft := s.line.guardTime } ∧ t.store = s.store ∧ t.stations = s.stations ∧
        t.fetch = s.fetch ∧ t.post = s.post ∧ t.arb = s.arb ∧ t.res = s.res ∧ t.port.image = none ∧
        t.port.record = s.port.record) ∧
    (∀ x, s.port.image = some x → ∀ c code,
      (c = .imageReadFault ∧ code = .imageRead ∧
        ((∃ n, x = .headerRead n) ∨ (∃ n, x = .stationsRead n) ∨ ∃ n l, x = .contextsRead n l)) ∨
      (c = .imageWriteFault ∧ code = .imageWrite ∧ ((∃ n d, x = .bodyWrite n d) ∨ ∃ n d, x = .headerWrite n d)) ∨
      (c = .spentWriteFault ∧ code = .imageWrite ∧ ∃ n d, x = .spentWrite n d) →
      ∃ t, exec c s = .next t ∧ t.ctrl = { s.ctrl with state := .halted, faultCode := code, faultDetail := 0 } ∧
        t.irq = { s.irq with halted := true } ∧ t.port = { s.port with image := none } ∧ t.link.driverEnable = false ∧
        t.store = s.store ∧ t.stations = s.stations ∧ t.fetch = s.fetch ∧ t.post = s.post ∧ t.susp = s.susp ∧
        t.arb = s.arb ∧ t.res = s.res ∧ t.line = s.line)

/-- In HALTED and RESETTING each completion of a transaction in flight, success or bus error, removes that transaction and changes nothing else: the reads of the configuration record and of an entry, the block reads and writes of a slot, the record write and the six transactions of the suspend image. -/
def Obligations.StoppedPartIgnoresCompletions : Prop :=
  ∀ s : State, s.ctrl.state = .halted ∨ s.ctrl.state = .resetting →
    (∀ n data, s.port.config = some n → data.length = 744 →
      exec (.configReadDone data) s = .next { s with port := { s.port with config := none } } ∧
      exec .configReadFault s = .next { s with port := { s.port with config := none } }) ∧
    (∀ e data, s.port.entry = some e → data.length = 32 →
      exec (.entryReadDone data) s = .next { s with port := { s.port with entry := none } } ∧
      exec .entryReadFault s = .next { s with port := { s.port with entry := none } }) ∧
    (∀ i form n data, s.xfer i = some (.read form n) → data.length = form.size →
      exec (.blockReadDone i data) s = .next (s.setXfer i none) ∧ exec (.blockReadFault i) s = .next (s.setXfer i none)) ∧
    (∀ i n data, s.xfer i = some (.write n data) →
      exec (.blockWriteDone i) s = .next (s.setXfer i none) ∧ exec (.blockWriteFault i) s = .next (s.setXfer i none)) ∧
    (∀ w, s.port.record = some w →
      exec .recordWriteDone s = .next { s with port := { s.port with record := none } } ∧
      exec .recordWriteFault s = .next { s with port := { s.port with record := none } }) ∧
    (∀ x (t : State), s.port.image = some x → t = { s with port := { s.port with image := none } } →
      (∀ n d, x = .bodyWrite n d → exec .imageWriteDone s = .next t ∧ exec .imageWriteFault s = .next t) ∧
      (∀ n d, x = .headerWrite n d → exec .imageHeaderWriteDone s = .next t ∧ exec .imageWriteFault s = .next t) ∧
      (∀ n data, x = .headerRead n → data.length = 64 →
        exec (.headerReadDone data) s = .next t ∧ exec .imageReadFault s = .next t) ∧
      (∀ n data, x = .stationsRead n → data.length = 320 →
        exec (.stationRecordsReadDone data) s = .next t ∧ exec .imageReadFault s = .next t) ∧
      (∀ n data, x = .contextsRead n data.length →
        exec (.contextsReadDone data) s = .next t ∧ exec .imageReadFault s = .next t) ∧
      (∀ n d, x = .spentWrite n d → exec .spentWriteDone s = .next t ∧ exec .spentWriteFault s = .next t))

/-- A completion stops as noSuchTransaction when no transaction of its kind is in flight, whether none is or one of another kind (a block or image completion of another kind included). A read that brings another number of bytes than was asked for stops as wrongLength: configuration record, entry, block, image header, station records, contexts. A line or timer event stops as noSuchLineEvent outside the phase in which it can occur: a choice unless RUNNING and IDLE, a frame's end unless sending, the guard's end unless between tries, a limit's expiry or a character or fault of a reception outside a listen period, line activity within one, an expiry of a timer that does not run. So does, within a listen period, a start limit after a character or a gap limit before one, a character or fault once a limit has been exceeded, and one that does not make of the frame what the event says. The spec gives such events no effect; that they stop is the model's choice (notes/assumptions 4). -/
def Obligations.EventsThatCannotOccurStop : Prop :=

  (∀ s : State, s.port.config = none → (∀ data, exec (.configReadDone data) s = .fault .noSuchTransaction) ∧
    exec .configReadFault s = .fault .noSuchTransaction) ∧
  (∀ s : State, s.port.entry = none → (∀ data, exec (.entryReadDone data) s = .fault .noSuchTransaction) ∧
    exec .entryReadFault s = .fault .noSuchTransaction) ∧
  (∀ s : State, s.port.record = none → exec .recordWriteDone s = .fault .noSuchTransaction ∧
    exec .recordWriteFault s = .fault .noSuchTransaction) ∧
  (∀ (s : State) (i : SlotId), ((∀ form n, s.xfer i ≠ some (.read form n)) →
      (∀ data, exec (.blockReadDone i data) s = .fault .noSuchTransaction) ∧
      exec (.blockReadFault i) s = .fault .noSuchTransaction) ∧
    ((∀ n d, s.xfer i ≠ some (.write n d)) → exec (.blockWriteDone i) s = .fault .noSuchTransaction ∧
      exec (.blockWriteFault i) s = .fault .noSuchTransaction)) ∧
  (∀ (s : State) (x : Option ImageTxn), s.port.image = x →
    ((∀ n d, x ≠ some (.bodyWrite n d)) → exec .imageWriteDone s = .fault .noSuchTransaction) ∧
    ((∀ n d, x ≠ some (.headerWrite n d)) → exec .imageHeaderWriteDone s = .fault .noSuchTransaction) ∧
    ((∀ n d, x ≠ some (.bodyWrite n d) ∧ x ≠ some (.headerWrite n d)) →
      exec .imageWriteFault s = .fault .noSuchTransaction) ∧
    ((∀ n, x ≠ some (.headerRead n)) → ∀ data, exec (.headerReadDone data) s = .fault .noSuchTransaction) ∧
    ((∀ n, x ≠ some (.stationsRead n)) → ∀ data, exec (.stationRecordsReadDone data) s = .fault .noSuchTransaction) ∧
    ((∀ n l, x ≠ some (.contextsRead n l)) → ∀ data, exec (.contextsReadDone data) s = .fault .noSuchTransaction) ∧
    ((∀ n l, x ≠ some (.headerRead n) ∧ x ≠ some (.stationsRead n) ∧ x ≠ some (.contextsRead n l)) →
      exec .imageReadFault s = .fault .noSuchTransaction) ∧
    ((∀ n d, x ≠ some (.spentWrite n d)) → exec .spentWriteDone s = .fault .noSuchTransaction ∧
      exec .spentWriteFault s = .fault .noSuchTransaction)) ∧
  (∀ (s : State) (data : List Byte),
    (∀ n, s.port.config = some n → data.length ≠ 744 → exec (.configReadDone data) s = .fault .wrongLength) ∧
    (∀ e, s.port.entry = some e → data.length ≠ 32 → exec (.entryReadDone data) s = .fault .wrongLength) ∧
    (∀ i form n, s.xfer i = some (.read form n) → data.length ≠ form.size →
      exec (.blockReadDone i data) s = .fault .wrongLength) ∧
    (∀ n, s.port.image = some (.headerRead n) → data.length ≠ 64 → exec (.headerReadDone data) s = .fault .wrongLength) ∧
    (∀ n, s.port.image = some (.stationsRead n) → data.length ≠ 320 →
      exec (.stationRecordsReadDone data) s = .fault .wrongLength) ∧
    (∀ n l, s.port.image = some (.contextsRead n l) → data.length ≠ l →
      exec (.contextsReadDone data) s = .fault .wrongLength)) ∧
  (∀ s : State, s.ctrl.state ≠ .running ∨ s.link.phase ≠ .idle → exec .arbiterChoice s = .fault .noSuchLineEvent) ∧
  (∀ s : State, (∀ u, ¬s.works u .sending) → exec .masterFrameEnd s = .fault .noSuchLineEvent) ∧
  (∀ s : State, (∀ u, ¬s.works u .retryGuard) → exec .retryGuardElapsed s = .fault .noSuchLineEvent) ∧
  (∀ s : State, ((∀ u, ¬s.works u .listening) ∨ s.link.rx ≠ [] → exec .startLimitExpiry s = .fault .noSuchLineEvent) ∧
    ((∀ u, ¬s.works u .listening) ∨ s.link.rx = [] → exec .gapLimitExpiry s = .fault .noSuchLineEvent) ∧
    ((∀ u, ¬s.works u .listening) ∨ s.link.late = true → ∀ (c : Byte) (why : RxFault),
      exec (.frameReceived c) s = .fault .noSuchLineEvent ∧
      exec (.stationCharacterReceived c) s = .fault .noSuchLineEvent ∧
      exec (.garbledReception why) s = .fault .noSuchLineEvent) ∧
    (∀ c : Byte, (rxProgress (s.link.rx ++ [c]) ≠ .frame → exec (.frameReceived c) s = .fault .noSuchLineEvent) ∧
      (rxProgress (s.link.rx ++ [c]) ≠ .incomplete → exec (.stationCharacterReceived c) s = .fault .noSuchLineEvent) ∧
      (rxProgress (s.link.rx ++ [c]) ≠ .garbled →
        exec (.garbledReception (.character c)) s = .fault .noSuchLineEvent))) ∧
  (∀ (s : State) (u : Turn), s.works u .listening → exec .lineActivity s = .fault .noSuchLineEvent) ∧
  (∀ s : State, s.ctrl.state ≠ .running ∨ s.arb.emptyTimer = none →
    exec .emptyCycleTimerExpiry s = .fault .noSuchLineEvent) ∧
  (∀ (s : State) (a : StationId), s.ctrl.state ≠ .running ∨ (s.stn a).holdOff = none →
    exec (.holdOffExpiry a) s = .fault .noSuchLineEvent)


/-- In HALTED every command but FULL_RESET and power-on leaves station table, store, arbiter, resolver, fetcher, poster, suspend unit, link engine and line values as they stand, and of the controller changes the last command result alone; the interrupt registers and the transactions in flight may change. (FULL_RESET written by its code is FULL_RESET, notes/assumptions 27.) -/
def Obligations.HaltedIsFrozen : Prop :=
  ∀ (c : Instr) (s t : State), s.ctrl.state = .halted → c ≠ .powerOn → namedBy c ≠ .fullReset → exec c s = .next t →
    t.ctrl = { s.ctrl with lastResult := t.ctrl.lastResult } ∧ t.stations = s.stations ∧ t.store = s.store ∧
    t.arb = s.arb ∧ t.res = s.res ∧ t.fetch = s.fetch ∧ t.post = s.post ∧ t.susp = s.susp ∧ t.link = s.link ∧
    t.line = s.line ∧ t.pending = s.pending

/-- From a state in which the transactions of the port belong to their controller states, whatever command runs, the controller state stays or makes one of the transitions R191 and R172 name, at the command they name for it: a record write's bus error leads to HALTED from RUNNING, SUSPENDING and RESUMING alone. (A command written by its code counts as that command, notes/assumptions 27.) -/
def Obligations.ControllerTransitions : Prop :=
  ∀ (c : Instr) (s t : State), s.engineLaw → exec c s = .next t →
    t.ctrl.state = s.ctrl.state ∨ transitionAllowed (namedBy c) s.ctrl.state t.ctrl.state

/-- Every command but power-on, the load of the configuration record and the completion of FULL_RESET leaves the line values, ring descriptors, windows, schedule, ratios, attention range and completion ring's base and size as they were. -/
def Obligations.ConfigurationStaysFixed : Prop :=
  ∀ (c : Instr) (s t : State), reconfigures c = false → exec c s = .next t → SameConfiguration s t

/-- The law of image alignment, the law of the attention stack, the law of who may use line and port, the law of the report queue, the law of slot accounting, the law of list depth and the law of credits all hold in the power-on state. -/
def Obligations.LawsHoldAtReset : Prop :=
  State.reset.imageLaw ∧ State.reset.attentionLaw ∧ State.reset.engineLaw ∧ State.reset.reportLaw ∧ State.reset.slotLaw ∧
    State.reset.depthLaw ∧ State.reset.creditLaw

/-- From every state in which IMAGE_BASE is 0 or a multiple of 4096, and so is a next-base that a resume has read, a step that answers a next state answers one in which this holds. -/
def Obligations.ImageAlignmentIsKept : Prop :=
  ∀ s t : State, s.imageLaw → step s = .next t → t.imageLaw

/-- From every state with at most 8 ranges on the stack, each within the configured range and not empty, a CALL step in progress over such a range, and a search range that is not empty, a step that answers a next state answers one of this kind. -/
def Obligations.AttentionStackLawIsKept : Prop :=
  ∀ s t : State, s.attentionLaw → step s = .next t → t.attentionLaw

/-- From every state in which a turn exists only on line or frozen in HALTED, driver-enable is asserted only while a frame is being sent on line, configuration, record and image transactions belong to the controller states that make them or outlive them in HALTED and RESETTING, block transfers belong to RUNNING and SUSPENDING, none of them after its first part, and in its last part nothing is left to post, a step that answers a next state answers one of this kind. -/
def Obligations.LineAndPortLawIsKept : Prop :=
  ∀ s t : State, s.engineLaw → step s = .next t → t.engineLaw

/-- From every state in which queued reports, the resolver's reservation and a poll turn hold an unsolicited credit each, at most four, with a latch and a confirm POLL under the reservation, a step that answers a next state answers one of this kind: the report queue never overflows. -/
def Obligations.ReportQueueLawIsKept : Prop :=
  ∀ s t : State, s.reportLaw → step s = .next t → t.reportLaw

/-- From every state that keeps the law of who may use line and port, in which each slot is FREE or stands in exactly one place, once, the DONE slots in the post list, each list holding exchanges of its kind and station, the exchange in turn at the head of its list, followers only with an exchange turn, a block transfer only for a slot in use (a running SEND without a block or a running FETCH out of turn, or an ended exchange not yet posted), and no slot in use while the exchanges are saved in the image, a step that answers a next state answers one of this kind. -/
def Obligations.SlotAccountingIsKept : Prop :=
  ∀ s t : State, s.engineLaw → s.slotLaw → step s = .next t → t.slotLaw

/-- From every state that keeps the law of who may use line and port and the law of slot accounting and in which no station list holds more entries than its station's depth, a step that answers a next state answers one in which none does. -/
def Obligations.ListDepthIsKept : Prop :=
  ∀ s t : State, s.engineLaw → s.slotLaw → s.depthLaw → step s = .next t → t.depthLaw

/-- From every state that keeps the laws of line and port, of slot accounting and of the report queue, in which unconsumed records and reserved credits fit the completion ring and each reserved credit is held by what it is reserved for, a step that answers a next state answers one of this kind: free never falls below 0. -/
def Obligations.CreditLawIsKept : Prop :=
  ∀ s t : State, s.engineLaw → s.slotLaw → s.reportLaw → s.creditLaw → step s = .next t → t.creditLaw

/-- For every ADDRESS, CONTROL and payload of up to 120 bytes, the characters SYNC, ADDRESS, CONTROL, LENGTH, PAYLOAD and CHECK, high byte first, are judged a frame by the receiver and give back the three fields; every proper beginning of them is judged incomplete; with another CHECK they are judged garbled. -/
def Obligations.LineFramesRoundTrip : Prop :=
  ∀ (address control : Byte) (payload : List Byte) (body : List Byte) (check : BitVec 16), payload.length ≤ 120 →
    body = address :: control :: BitVec.ofNat 8 payload.length :: payload →
    ∀ chars : List Byte, chars = 0xA6#8 :: body ++ [check.extractLsb' 8 8, check.extractLsb' 0 8] →
      (check = crc body → rxProgress chars = .frame ∧
        RxFrame.ofChars chars = { address := address, control := control, payload := payload }) ∧
      (check ≠ crc body → rxProgress chars = .garbled) ∧
      ∀ n, 1 ≤ n → n < chars.length → rxProgress (chars.take n) = .incomplete

/-- A header whose fields fit their places reads back as itself. A station record written from an entry within the ranges of Tables 3-1 and 3-2 passes its check against that entry and restores it unchanged. A written context read back gives the slot's kind, ring, station, tag, take number, flags and counts, with action CONTINUE, the buffer and length of a SEND, FETCH or QUERY and 0 for another kind, the repeat count of a SAFE and 0 for another kind; the frame M is the station's M of an outcome-unknown exchange, 0 of another (notes/assumptions 9); its bytes 30 to 47 and the bits 7:4 of its byte 12 are 0. The bytes of a context give its fields at the places of Table 12-8 and those of a station record the restored link fields at the places of Table 12-7, the lowest byte first. -/
def Obligations.ImageRoundTrip : Prop :=
  (∀ h : ImageHeader, h.magic < 2 ^ 32 → h.version < 256 → h.stations < 256 → h.contexts < 2 ^ 16 → h.nextBase < 2 ^ 64 →
    ImageHeader.ofBytes h.bytes = h ∧ h.bytes.length = 64) ∧
  (∀ x : Station, (x.state = .vacant ↔ x.present = false) →
    (if x.state = .up ∨ x.state = .joining then x.failures < 15 else x.failures ≤ 15) →
    (x.resync = true → x.state = .up ∨ x.state = .joining) →
    (∀ n, x.holdOff = some n → x.state = .up ∧ 1 ≤ n ∧ n ≤ 4096) →
    (∀ n, x.offered = some n → 8 ≤ n ∧ n ≤ 120 ∧ x.state ≠ .vacant) →
    1 ≤ x.targetDepth → x.targetDepth ≤ x.depth → x.depth ≤ 16 →
    x.record.length = 8 ∧ x.recordPasses x.record = true ∧ x.restore x.record = x) ∧
  (∀ (s : State) (i : SlotId) (x : Slot) (k : ExKind), x = s.slot i → x.kind = some k → x.buf < 2 ^ 64 → x.len < 2 ^ 16 →
    x.bytes < 2 ^ 16 → x.blocks < 2 ^ 16 → x.tries < 256 → x.busy < 256 → x.repeats < 256 →
    (s.context i).length = 48 ∧ (∀ n, 30 ≤ n → (s.context i).getD n 0 = 0) ∧ ((s.context i).getD 12 0).toNat < 16 ∧
    Context.ofBytes (s.context i) =
      { action := 0, kind := k.code, ring := x.ring.val, station := (x.station.map StationId.addr).getD 0, tag := x.tag
        take := x.take, urgent := x.urgent, begun := x.begun, unknown := x.unknown, frameM := (x.unknown && match x.station with
          | some a => (s.stn a).m
          | none => false)
        tries := x.tries, busy := x.busy, repeats := (if k = .safe then x.repeats else 0)
        buf := (if k.hasBuffer then x.buf else 0), len := (if k.hasBuffer then x.len else 0), bytes := x.bytes
        blocks := x.blocks }) ∧
  (∀ (data : List Byte) (b : Nat → Nat) (c : Context), data.length = 48 → (∀ n, b n = (data.getD n 0).toNat) →
    c = Context.ofBytes data → c.action = b 0 ∧ c.kind = b 1 ∧ c.ring = b 2 ∧ c.station = b 3 ∧
    c.tag.toNat = b 4 + 2 ^ 8 * b 5 + 2 ^ 16 * b 6 + 2 ^ 24 * b 7 ∧
    c.take.toNat = b 8 + 2 ^ 8 * b 9 + 2 ^ 16 * b 10 + 2 ^ 24 * b 11 ∧
    (c.urgent = true ↔ b 12 % 2 = 1) ∧ (c.begun = true ↔ b 12 / 2 % 2 = 1) ∧ (c.unknown = true ↔ b 12 / 4 % 2 = 1) ∧
    (c.frameM = true ↔ b 12 / 8 % 2 = 1) ∧ c.tries = b 13 ∧ c.busy = b 14 ∧ c.repeats = b 15 ∧
    c.buf = b 16 + 2 ^ 8 * b 17 + 2 ^ 16 * b 18 + 2 ^ 24 * b 19 +
      2 ^ 32 * (b 20 + 2 ^ 8 * b 21 + 2 ^ 16 * b 22 + 2 ^ 24 * b 23) ∧
    c.len = b 24 + 2 ^ 8 * b 25 ∧ c.bytes = b 26 + 2 ^ 8 * b 27 ∧ c.blocks = b 28 + 2 ^ 8 * b 29) ∧
  (∀ (x y : Station) (r : List Byte) (b : Nat → Nat), x.recordPasses r = true → (∀ n, b n = (r.getD n 0).toNat) →
    y = x.restore r → y = { x with
      state := y.state, m := b 1 % 2 == 1, resync := b 1 / 2 % 2 == 1, failures := b 2
      offered := (if b 3 = 0 then none else some (b 3))
      holdOff := (if b 1 / 4 % 2 = 1 then some (b 4 + 2 ^ 8 * b 5) else none), notice := y.notice, depth := b 7 % 16 + 1 } ∧
    y.state.code = b 0 ∧ (b 1 / 8 % 2 = 0 → y.notice = none) ∧
    (b 1 / 8 % 2 = 1 → ∃ cause, y.notice = some cause ∧ cause.code = b 6))
end

