-- ==== Sys2Proof/Laws/State.lean ====
section
/-! SUPPORT. One lemma per field per named update, and reading back what an update wrote. -/

namespace Sys2Proof.Machine

/-! ### setStn -/

@[simp] theorem State.setStn_ctrl (s : State) (a : StationId) (x : Station) : (s.setStn a x).ctrl = s.ctrl := rfl
@[simp] theorem State.setStn_irq (s : State) (a : StationId) (x : Station) : (s.setStn a x).irq = s.irq := rfl
@[simp] theorem State.setStn_line (s : State) (a : StationId) (x : Station) : (s.setStn a x).line = s.line := rfl
@[simp] theorem State.setStn_link (s : State) (a : StationId) (x : Station) : (s.setStn a x).link = s.link := rfl
@[simp] theorem State.setStn_store (s : State) (a : StationId) (x : Station) : (s.setStn a x).store = s.store := rfl
@[simp] theorem State.setStn_arb (s : State) (a : StationId) (x : Station) : (s.setStn a x).arb = s.arb := rfl
@[simp] theorem State.setStn_res (s : State) (a : StationId) (x : Station) : (s.setStn a x).res = s.res := rfl
@[simp] theorem State.setStn_fetch (s : State) (a : StationId) (x : Station) : (s.setStn a x).fetch = s.fetch := rfl
@[simp] theorem State.setStn_post (s : State) (a : StationId) (x : Station) : (s.setStn a x).post = s.post := rfl
@[simp] theorem State.setStn_susp (s : State) (a : StationId) (x : Station) : (s.setStn a x).susp = s.susp := rfl
@[simp] theorem State.setStn_port (s : State) (a : StationId) (x : Station) : (s.setStn a x).port = s.port := rfl
@[simp] theorem State.setStn_pending (s : State) (a : StationId) (x : Station) : (s.setStn a x).pending = s.pending := rfl

/-! ### setSlot -/

@[simp] theorem State.setSlot_ctrl (s : State) (i : SlotId) (x : Slot) : (s.setSlot i x).ctrl = s.ctrl := rfl
@[simp] theorem State.setSlot_irq (s : State) (i : SlotId) (x : Slot) : (s.setSlot i x).irq = s.irq := rfl
@[simp] theorem State.setSlot_line (s : State) (i : SlotId) (x : Slot) : (s.setSlot i x).line = s.line := rfl
@[simp] theorem State.setSlot_link (s : State) (i : SlotId) (x : Slot) : (s.setSlot i x).link = s.link := rfl
@[simp] theorem State.setSlot_stations (s : State) (i : SlotId) (x : Slot) : (s.setSlot i x).stations = s.stations := rfl
@[simp] theorem State.setSlot_arb (s : State) (i : SlotId) (x : Slot) : (s.setSlot i x).arb = s.arb := rfl
@[simp] theorem State.setSlot_res (s : State) (i : SlotId) (x : Slot) : (s.setSlot i x).res = s.res := rfl
@[simp] theorem State.setSlot_fetch (s : State) (i : SlotId) (x : Slot) : (s.setSlot i x).fetch = s.fetch := rfl
@[simp] theorem State.setSlot_post (s : State) (i : SlotId) (x : Slot) : (s.setSlot i x).post = s.post := rfl
@[simp] theorem State.setSlot_susp (s : State) (i : SlotId) (x : Slot) : (s.setSlot i x).susp = s.susp := rfl
@[simp] theorem State.setSlot_port (s : State) (i : SlotId) (x : Slot) : (s.setSlot i x).port = s.port := rfl
@[simp] theorem State.setSlot_pending (s : State) (i : SlotId) (x : Slot) : (s.setSlot i x).pending = s.pending := rfl

/-! ### setList -/

@[simp] theorem State.setList_ctrl (s : State) (a : StationId) (l : List SlotId) : (s.setList a l).ctrl = s.ctrl := rfl
@[simp] theorem State.setList_irq (s : State) (a : StationId) (l : List SlotId) : (s.setList a l).irq = s.irq := rfl
@[simp] theorem State.setList_line (s : State) (a : StationId) (l : List SlotId) : (s.setList a l).line = s.line := rfl
@[simp] theorem State.setList_link (s : State) (a : StationId) (l : List SlotId) : (s.setList a l).link = s.link := rfl
@[simp] theorem State.setList_stations (s : State) (a : StationId) (l : List SlotId) : (s.setList a l).stations = s.stations := rfl
@[simp] theorem State.setList_arb (s : State) (a : StationId) (l : List SlotId) : (s.setList a l).arb = s.arb := rfl
@[simp] theorem State.setList_res (s : State) (a : StationId) (l : List SlotId) : (s.setList a l).res = s.res := rfl
@[simp] theorem State.setList_fetch (s : State) (a : StationId) (l : List SlotId) : (s.setList a l).fetch = s.fetch := rfl
@[simp] theorem State.setList_post (s : State) (a : StationId) (l : List SlotId) : (s.setList a l).post = s.post := rfl
@[simp] theorem State.setList_susp (s : State) (a : StationId) (l : List SlotId) : (s.setList a l).susp = s.susp := rfl
@[simp] theorem State.setList_port (s : State) (a : StationId) (l : List SlotId) : (s.setList a l).port = s.port := rfl
@[simp] theorem State.setList_pending (s : State) (a : StationId) (l : List SlotId) : (s.setList a l).pending = s.pending := rfl

/-! ### setBarrier -/

@[simp] theorem State.setBarrier_ctrl (s : State) (r : RingId) (l : List SlotId) : (s.setBarrier r l).ctrl = s.ctrl := rfl
@[simp] theorem State.setBarrier_irq (s : State) (r : RingId) (l : List SlotId) : (s.setBarrier r l).irq = s.irq := rfl
@[simp] theorem State.setBarrier_line (s : State) (r : RingId) (l : List SlotId) : (s.setBarrier r l).line = s.line := rfl
@[simp] theorem State.setBarrier_link (s : State) (r : RingId) (l : List SlotId) : (s.setBarrier r l).link = s.link := rfl
@[simp] theorem State.setBarrier_stations (s : State) (r : RingId) (l : List SlotId) : (s.setBarrier r l).stations = s.stations := rfl
@[simp] theorem State.setBarrier_arb (s : State) (r : RingId) (l : List SlotId) : (s.setBarrier r l).arb = s.arb := rfl
@[simp] theorem State.setBarrier_res (s : State) (r : RingId) (l : List SlotId) : (s.setBarrier r l).res = s.res := rfl
@[simp] theorem State.setBarrier_fetch (s : State) (r : RingId) (l : List SlotId) : (s.setBarrier r l).fetch = s.fetch := rfl
@[simp] theorem State.setBarrier_post (s : State) (r : RingId) (l : List SlotId) : (s.setBarrier r l).post = s.post := rfl
@[simp] theorem State.setBarrier_susp (s : State) (r : RingId) (l : List SlotId) : (s.setBarrier r l).susp = s.susp := rfl
@[simp] theorem State.setBarrier_port (s : State) (r : RingId) (l : List SlotId) : (s.setBarrier r l).port = s.port := rfl
@[simp] theorem State.setBarrier_pending (s : State) (r : RingId) (l : List SlotId) : (s.setBarrier r l).pending = s.pending := rfl

/-! ### addPost -/

@[simp] theorem State.addPost_ctrl (s : State) (e : PostEntry) : (s.addPost e).ctrl = s.ctrl := rfl
@[simp] theorem State.addPost_irq (s : State) (e : PostEntry) : (s.addPost e).irq = s.irq := rfl
@[simp] theorem State.addPost_line (s : State) (e : PostEntry) : (s.addPost e).line = s.line := rfl
@[simp] theorem State.addPost_link (s : State) (e : PostEntry) : (s.addPost e).link = s.link := rfl
@[simp] theorem State.addPost_stations (s : State) (e : PostEntry) : (s.addPost e).stations = s.stations := rfl
@[simp] theorem State.addPost_arb (s : State) (e : PostEntry) : (s.addPost e).arb = s.arb := rfl
@[simp] theorem State.addPost_res (s : State) (e : PostEntry) : (s.addPost e).res = s.res := rfl
@[simp] theorem State.addPost_fetch (s : State) (e : PostEntry) : (s.addPost e).fetch = s.fetch := rfl
@[simp] theorem State.addPost_post (s : State) (e : PostEntry) : (s.addPost e).post = s.post := rfl
@[simp] theorem State.addPost_susp (s : State) (e : PostEntry) : (s.addPost e).susp = s.susp := rfl
@[simp] theorem State.addPost_port (s : State) (e : PostEntry) : (s.addPost e).port = s.port := rfl
@[simp] theorem State.addPost_pending (s : State) (e : PostEntry) : (s.addPost e).pending = s.pending := rfl

/-! ### finish -/

@[simp] theorem State.finish_ctrl (s : State) (i : SlotId) (st : Status) : (s.finish i st).ctrl = s.ctrl := rfl
@[simp] theorem State.finish_irq (s : State) (i : SlotId) (st : Status) : (s.finish i st).irq = s.irq := rfl
@[simp] theorem State.finish_line (s : State) (i : SlotId) (st : Status) : (s.finish i st).line = s.line := rfl
@[simp] theorem State.finish_link (s : State) (i : SlotId) (st : Status) : (s.finish i st).link = s.link := rfl
@[simp] theorem State.finish_stations (s : State) (i : SlotId) (st : Status) : (s.finish i st).stations = s.stations := rfl
@[simp] theorem State.finish_arb (s : State) (i : SlotId) (st : Status) : (s.finish i st).arb = s.arb := rfl
@[simp] theorem State.finish_res (s : State) (i : SlotId) (st : Status) : (s.finish i st).res = s.res := rfl
@[simp] theorem State.finish_fetch (s : State) (i : SlotId) (st : Status) : (s.finish i st).fetch = s.fetch := rfl
@[simp] theorem State.finish_post (s : State) (i : SlotId) (st : Status) : (s.finish i st).post = s.post := rfl
@[simp] theorem State.finish_susp (s : State) (i : SlotId) (st : Status) : (s.finish i st).susp = s.susp := rfl
@[simp] theorem State.finish_port (s : State) (i : SlotId) (st : Status) : (s.finish i st).port = s.port := rfl
@[simp] theorem State.finish_pending (s : State) (i : SlotId) (st : Status) : (s.finish i st).pending = s.pending := rfl

/-! ### fill -/

@[simp] theorem State.fill_ctrl (s : State) (i : SlotId) (x : Slot) : (s.fill i x).ctrl = s.ctrl := rfl
@[simp] theorem State.fill_irq (s : State) (i : SlotId) (x : Slot) : (s.fill i x).irq = s.irq := rfl
@[simp] theorem State.fill_line (s : State) (i : SlotId) (x : Slot) : (s.fill i x).line = s.line := rfl
@[simp] theorem State.fill_link (s : State) (i : SlotId) (x : Slot) : (s.fill i x).link = s.link := rfl
@[simp] theorem State.fill_stations (s : State) (i : SlotId) (x : Slot) : (s.fill i x).stations = s.stations := rfl
@[simp] theorem State.fill_arb (s : State) (i : SlotId) (x : Slot) : (s.fill i x).arb = s.arb := rfl
@[simp] theorem State.fill_res (s : State) (i : SlotId) (x : Slot) : (s.fill i x).res = s.res := rfl
@[simp] theorem State.fill_fetch (s : State) (i : SlotId) (x : Slot) : (s.fill i x).fetch = s.fetch := rfl
@[simp] theorem State.fill_post (s : State) (i : SlotId) (x : Slot) : (s.fill i x).post = s.post := rfl
@[simp] theorem State.fill_susp (s : State) (i : SlotId) (x : Slot) : (s.fill i x).susp = s.susp := rfl
@[simp] theorem State.fill_port (s : State) (i : SlotId) (x : Slot) : (s.fill i x).port = s.port := rfl
@[simp] theorem State.fill_pending (s : State) (i : SlotId) (x : Slot) : (s.fill i x).pending = s.pending := rfl

/-! ### addFollower -/

@[simp] theorem State.addFollower_ctrl (s : State) (i : SlotId) : (s.addFollower i).ctrl = s.ctrl := rfl
@[simp] theorem State.addFollower_irq (s : State) (i : SlotId) : (s.addFollower i).irq = s.irq := rfl
@[simp] theorem State.addFollower_line (s : State) (i : SlotId) : (s.addFollower i).line = s.line := rfl
@[simp] theorem State.addFollower_link (s : State) (i : SlotId) : (s.addFollower i).link = s.link := rfl
@[simp] theorem State.addFollower_stations (s : State) (i : SlotId) : (s.addFollower i).stations = s.stations := rfl
@[simp] theorem State.addFollower_arb (s : State) (i : SlotId) : (s.addFollower i).arb = s.arb := rfl
@[simp] theorem State.addFollower_res (s : State) (i : SlotId) : (s.addFollower i).res = s.res := rfl
@[simp] theorem State.addFollower_fetch (s : State) (i : SlotId) : (s.addFollower i).fetch = s.fetch := rfl
@[simp] theorem State.addFollower_post (s : State) (i : SlotId) : (s.addFollower i).post = s.post := rfl
@[simp] theorem State.addFollower_susp (s : State) (i : SlotId) : (s.addFollower i).susp = s.susp := rfl
@[simp] theorem State.addFollower_port (s : State) (i : SlotId) : (s.addFollower i).port = s.port := rfl
@[simp] theorem State.addFollower_pending (s : State) (i : SlotId) : (s.addFollower i).pending = s.pending := rfl

/-! ### slotless -/

@[simp] theorem State.slotless_ctrl (s : State) (r : RingId) (e : Entry) (n : Word) (st : Status) : (s.slotless r e n st).ctrl = s.ctrl := rfl
@[simp] theorem State.slotless_irq (s : State) (r : RingId) (e : Entry) (n : Word) (st : Status) : (s.slotless r e n st).irq = s.irq := rfl
@[simp] theorem State.slotless_line (s : State) (r : RingId) (e : Entry) (n : Word) (st : Status) : (s.slotless r e n st).line = s.line := rfl
@[simp] theorem State.slotless_link (s : State) (r : RingId) (e : Entry) (n : Word) (st : Status) : (s.slotless r e n st).link = s.link := rfl
@[simp] theorem State.slotless_stations (s : State) (r : RingId) (e : Entry) (n : Word) (st : Status) : (s.slotless r e n st).stations = s.stations := rfl
@[simp] theorem State.slotless_arb (s : State) (r : RingId) (e : Entry) (n : Word) (st : Status) : (s.slotless r e n st).arb = s.arb := rfl
@[simp] theorem State.slotless_res (s : State) (r : RingId) (e : Entry) (n : Word) (st : Status) : (s.slotless r e n st).res = s.res := rfl
@[simp] theorem State.slotless_fetch (s : State) (r : RingId) (e : Entry) (n : Word) (st : Status) : (s.slotless r e n st).fetch = s.fetch := rfl
@[simp] theorem State.slotless_post (s : State) (r : RingId) (e : Entry) (n : Word) (st : Status) : (s.slotless r e n st).post = s.post := rfl
@[simp] theorem State.slotless_susp (s : State) (r : RingId) (e : Entry) (n : Word) (st : Status) : (s.slotless r e n st).susp = s.susp := rfl
@[simp] theorem State.slotless_port (s : State) (r : RingId) (e : Entry) (n : Word) (st : Status) : (s.slotless r e n st).port = s.port := rfl
@[simp] theorem State.slotless_pending (s : State) (r : RingId) (e : Entry) (n : Word) (st : Status) : (s.slotless r e n st).pending = s.pending := rfl

/-! ### setRing -/

@[simp] theorem State.setRing_ctrl (s : State) (r : RingId) (x : Ring) : (s.setRing r x).ctrl = s.ctrl := rfl
@[simp] theorem State.setRing_irq (s : State) (r : RingId) (x : Ring) : (s.setRing r x).irq = s.irq := rfl
@[simp] theorem State.setRing_line (s : State) (r : RingId) (x : Ring) : (s.setRing r x).line = s.line := rfl
@[simp] theorem State.setRing_link (s : State) (r : RingId) (x : Ring) : (s.setRing r x).link = s.link := rfl
@[simp] theorem State.setRing_stations (s : State) (r : RingId) (x : Ring) : (s.setRing r x).stations = s.stations := rfl
@[simp] theorem State.setRing_store (s : State) (r : RingId) (x : Ring) : (s.setRing r x).store = s.store := rfl
@[simp] theorem State.setRing_arb (s : State) (r : RingId) (x : Ring) : (s.setRing r x).arb = s.arb := rfl
@[simp] theorem State.setRing_res (s : State) (r : RingId) (x : Ring) : (s.setRing r x).res = s.res := rfl
@[simp] theorem State.setRing_post (s : State) (r : RingId) (x : Ring) : (s.setRing r x).post = s.post := rfl
@[simp] theorem State.setRing_susp (s : State) (r : RingId) (x : Ring) : (s.setRing r x).susp = s.susp := rfl
@[simp] theorem State.setRing_port (s : State) (r : RingId) (x : Ring) : (s.setRing r x).port = s.port := rfl
@[simp] theorem State.setRing_pending (s : State) (r : RingId) (x : Ring) : (s.setRing r x).pending = s.pending := rfl

/-! ### advance -/

@[simp] theorem State.advance_ctrl (s : State) (r : RingId) : (s.advance r).ctrl = s.ctrl := rfl
@[simp] theorem State.advance_irq (s : State) (r : RingId) : (s.advance r).irq = s.irq := rfl
@[simp] theorem State.advance_line (s : State) (r : RingId) : (s.advance r).line = s.line := rfl
@[simp] theorem State.advance_link (s : State) (r : RingId) : (s.advance r).link = s.link := rfl
@[simp] theorem State.advance_stations (s : State) (r : RingId) : (s.advance r).stations = s.stations := rfl
@[simp] theorem State.advance_store (s : State) (r : RingId) : (s.advance r).store = s.store := rfl
@[simp] theorem State.advance_arb (s : State) (r : RingId) : (s.advance r).arb = s.arb := rfl
@[simp] theorem State.advance_res (s : State) (r : RingId) : (s.advance r).res = s.res := rfl
@[simp] theorem State.advance_post (s : State) (r : RingId) : (s.advance r).post = s.post := rfl
@[simp] theorem State.advance_susp (s : State) (r : RingId) : (s.advance r).susp = s.susp := rfl
@[simp] theorem State.advance_port (s : State) (r : RingId) : (s.advance r).port = s.port := rfl
@[simp] theorem State.advance_pending (s : State) (r : RingId) : (s.advance r).pending = s.pending := rfl

/-! ### setXfer -/

@[simp] theorem State.setXfer_ctrl (s : State) (i : SlotId) (x : Option Transfer) : (s.setXfer i x).ctrl = s.ctrl := rfl
@[simp] theorem State.setXfer_irq (s : State) (i : SlotId) (x : Option Transfer) : (s.setXfer i x).irq = s.irq := rfl
@[simp] theorem State.setXfer_line (s : State) (i : SlotId) (x : Option Transfer) : (s.setXfer i x).line = s.line := rfl
@[simp] theorem State.setXfer_link (s : State) (i : SlotId) (x : Option Transfer) : (s.setXfer i x).link = s.link := rfl
@[simp] theorem State.setXfer_stations (s : State) (i : SlotId) (x : Option Transfer) : (s.setXfer i x).stations = s.stations := rfl
@[simp] theorem State.setXfer_store (s : State) (i : SlotId) (x : Option Transfer) : (s.setXfer i x).store = s.store := rfl
@[simp] theorem State.setXfer_arb (s : State) (i : SlotId) (x : Option Transfer) : (s.setXfer i x).arb = s.arb := rfl
@[simp] theorem State.setXfer_res (s : State) (i : SlotId) (x : Option Transfer) : (s.setXfer i x).res = s.res := rfl
@[simp] theorem State.setXfer_fetch (s : State) (i : SlotId) (x : Option Transfer) : (s.setXfer i x).fetch = s.fetch := rfl
@[simp] theorem State.setXfer_post (s : State) (i : SlotId) (x : Option Transfer) : (s.setXfer i x).post = s.post := rfl
@[simp] theorem State.setXfer_susp (s : State) (i : SlotId) (x : Option Transfer) : (s.setXfer i x).susp = s.susp := rfl
@[simp] theorem State.setXfer_pending (s : State) (i : SlotId) (x : Option Transfer) : (s.setXfer i x).pending = s.pending := rfl

/-! ### setCtrl -/

@[simp] theorem State.setCtrl_irq (s : State) (c : CtrlState) : (s.setCtrl c).irq = s.irq := rfl
@[simp] theorem State.setCtrl_line (s : State) (c : CtrlState) : (s.setCtrl c).line = s.line := rfl
@[simp] theorem State.setCtrl_link (s : State) (c : CtrlState) : (s.setCtrl c).link = s.link := rfl
@[simp] theorem State.setCtrl_stations (s : State) (c : CtrlState) : (s.setCtrl c).stations = s.stations := rfl
@[simp] theorem State.setCtrl_store (s : State) (c : CtrlState) : (s.setCtrl c).store = s.store := rfl
@[simp] theorem State.setCtrl_arb (s : State) (c : CtrlState) : (s.setCtrl c).arb = s.arb := rfl
@[simp] theorem State.setCtrl_res (s : State) (c : CtrlState) : (s.setCtrl c).res = s.res := rfl
@[simp] theorem State.setCtrl_fetch (s : State) (c : CtrlState) : (s.setCtrl c).fetch = s.fetch := rfl
@[simp] theorem State.setCtrl_post (s : State) (c : CtrlState) : (s.setCtrl c).post = s.post := rfl
@[simp] theorem State.setCtrl_susp (s : State) (c : CtrlState) : (s.setCtrl c).susp = s.susp := rfl
@[simp] theorem State.setCtrl_port (s : State) (c : CtrlState) : (s.setCtrl c).port = s.port := rfl
@[simp] theorem State.setCtrl_pending (s : State) (c : CtrlState) : (s.setCtrl c).pending = s.pending := rfl

/-! ### setResult -/

@[simp] theorem State.setResult_irq (s : State) (c : CmdResult) : (s.setResult c).irq = s.irq := rfl
@[simp] theorem State.setResult_line (s : State) (c : CmdResult) : (s.setResult c).line = s.line := rfl
@[simp] theorem State.setResult_link (s : State) (c : CmdResult) : (s.setResult c).link = s.link := rfl
@[simp] theorem State.setResult_stations (s : State) (c : CmdResult) : (s.setResult c).stations = s.stations := rfl
@[simp] theorem State.setResult_store (s : State) (c : CmdResult) : (s.setResult c).store = s.store := rfl
@[simp] theorem State.setResult_arb (s : State) (c : CmdResult) : (s.setResult c).arb = s.arb := rfl
@[simp] theorem State.setResult_res (s : State) (c : CmdResult) : (s.setResult c).res = s.res := rfl
@[simp] theorem State.setResult_fetch (s : State) (c : CmdResult) : (s.setResult c).fetch = s.fetch := rfl
@[simp] theorem State.setResult_post (s : State) (c : CmdResult) : (s.setResult c).post = s.post := rfl
@[simp] theorem State.setResult_susp (s : State) (c : CmdResult) : (s.setResult c).susp = s.susp := rfl
@[simp] theorem State.setResult_port (s : State) (c : CmdResult) : (s.setResult c).port = s.port := rfl
@[simp] theorem State.setResult_pending (s : State) (c : CmdResult) : (s.setResult c).pending = s.pending := rfl

/-! ### setSeq -/

@[simp] theorem State.setSeq_ctrl (s : State) (q : Sequence) : (s.setSeq q).ctrl = s.ctrl := rfl
@[simp] theorem State.setSeq_irq (s : State) (q : Sequence) : (s.setSeq q).irq = s.irq := rfl
@[simp] theorem State.setSeq_line (s : State) (q : Sequence) : (s.setSeq q).line = s.line := rfl
@[simp] theorem State.setSeq_link (s : State) (q : Sequence) : (s.setSeq q).link = s.link := rfl
@[simp] theorem State.setSeq_stations (s : State) (q : Sequence) : (s.setSeq q).stations = s.stations := rfl
@[simp] theorem State.setSeq_store (s : State) (q : Sequence) : (s.setSeq q).store = s.store := rfl
@[simp] theorem State.setSeq_arb (s : State) (q : Sequence) : (s.setSeq q).arb = s.arb := rfl
@[simp] theorem State.setSeq_res (s : State) (q : Sequence) : (s.setSeq q).res = s.res := rfl
@[simp] theorem State.setSeq_fetch (s : State) (q : Sequence) : (s.setSeq q).fetch = s.fetch := rfl
@[simp] theorem State.setSeq_post (s : State) (q : Sequence) : (s.setSeq q).post = s.post := rfl
@[simp] theorem State.setSeq_port (s : State) (q : Sequence) : (s.setSeq q).port = s.port := rfl
@[simp] theorem State.setSeq_pending (s : State) (q : Sequence) : (s.setSeq q).pending = s.pending := rfl

/-! ### reserveEx -/

@[simp] theorem State.reserveEx_ctrl (s : State) : (s.reserveEx).ctrl = s.ctrl := rfl
@[simp] theorem State.reserveEx_irq (s : State) : (s.reserveEx).irq = s.irq := rfl
@[simp] theorem State.reserveEx_line (s : State) : (s.reserveEx).line = s.line := rfl
@[simp] theorem State.reserveEx_link (s : State) : (s.reserveEx).link = s.link := rfl
@[simp] theorem State.reserveEx_stations (s : State) : (s.reserveEx).stations = s.stations := rfl
@[simp] theorem State.reserveEx_store (s : State) : (s.reserveEx).store = s.store := rfl
@[simp] theorem State.reserveEx_arb (s : State) : (s.reserveEx).arb = s.arb := rfl
@[simp] theorem State.reserveEx_res (s : State) : (s.reserveEx).res = s.res := rfl
@[simp] theorem State.reserveEx_fetch (s : State) : (s.reserveEx).fetch = s.fetch := rfl
@[simp] theorem State.reserveEx_susp (s : State) : (s.reserveEx).susp = s.susp := rfl
@[simp] theorem State.reserveEx_port (s : State) : (s.reserveEx).port = s.port := rfl
@[simp] theorem State.reserveEx_pending (s : State) : (s.reserveEx).pending = s.pending := rfl

/-! ### returnEx -/

@[simp] theorem State.returnEx_ctrl (s : State) (n : Nat) : (s.returnEx n).ctrl = s.ctrl := rfl
@[simp] theorem State.returnEx_irq (s : State) (n : Nat) : (s.returnEx n).irq = s.irq := rfl
@[simp] theorem State.returnEx_line (s : State) (n : Nat) : (s.returnEx n).line = s.line := rfl
@[simp] theorem State.returnEx_link (s : State) (n : Nat) : (s.returnEx n).link = s.link := rfl
@[simp] theorem State.returnEx_stations (s : State) (n : Nat) : (s.returnEx n).stations = s.stations := rfl
@[simp] theorem State.returnEx_store (s : State) (n : Nat) : (s.returnEx n).store = s.store := rfl
@[simp] theorem State.returnEx_arb (s : State) (n : Nat) : (s.returnEx n).arb = s.arb := rfl
@[simp] theorem State.returnEx_res (s : State) (n : Nat) : (s.returnEx n).res = s.res := rfl
@[simp] theorem State.returnEx_fetch (s : State) (n : Nat) : (s.returnEx n).fetch = s.fetch := rfl
@[simp] theorem State.returnEx_susp (s : State) (n : Nat) : (s.returnEx n).susp = s.susp := rfl
@[simp] theorem State.returnEx_port (s : State) (n : Nat) : (s.returnEx n).port = s.port := rfl
@[simp] theorem State.returnEx_pending (s : State) (n : Nat) : (s.returnEx n).pending = s.pending := rfl

/-! ### reserveUnsol -/

@[simp] theorem State.reserveUnsol_ctrl (s : State) : (s.reserveUnsol).ctrl = s.ctrl := rfl
@[simp] theorem State.reserveUnsol_irq (s : State) : (s.reserveUnsol).irq = s.irq := rfl
@[simp] theorem State.reserveUnsol_line (s : State) : (s.reserveUnsol).line = s.line := rfl
@[simp] theorem State.reserveUnsol_link (s : State) : (s.reserveUnsol).link = s.link := rfl
@[simp] theorem State.reserveUnsol_stations (s : State) : (s.reserveUnsol).stations = s.stations := rfl
@[simp] theorem State.reserveUnsol_store (s : State) : (s.reserveUnsol).store = s.store := rfl
@[simp] theorem State.reserveUnsol_arb (s : State) : (s.reserveUnsol).arb = s.arb := rfl
@[simp] theorem State.reserveUnsol_res (s : State) : (s.reserveUnsol).res = s.res := rfl
@[simp] theorem State.reserveUnsol_fetch (s : State) : (s.reserveUnsol).fetch = s.fetch := rfl
@[simp] theorem State.reserveUnsol_susp (s : State) : (s.reserveUnsol).susp = s.susp := rfl
@[simp] theorem State.reserveUnsol_port (s : State) : (s.reserveUnsol).port = s.port := rfl
@[simp] theorem State.reserveUnsol_pending (s : State) : (s.reserveUnsol).pending = s.pending := rfl

/-! ### returnUnsol -/

@[simp] theorem State.returnUnsol_ctrl (s : State) : (s.returnUnsol).ctrl = s.ctrl := rfl
@[simp] theorem State.returnUnsol_irq (s : State) : (s.returnUnsol).irq = s.irq := rfl
@[simp] theorem State.returnUnsol_line (s : State) : (s.returnUnsol).line = s.line := rfl
@[simp] theorem State.returnUnsol_link (s : State) : (s.returnUnsol).link = s.link := rfl
@[simp] theorem State.returnUnsol_stations (s : State) : (s.returnUnsol).stations = s.stations := rfl
@[simp] theorem State.returnUnsol_store (s : State) : (s.returnUnsol).store = s.store := rfl
@[simp] theorem State.returnUnsol_arb (s : State) : (s.returnUnsol).arb = s.arb := rfl
@[simp] theorem State.returnUnsol_res (s : State) : (s.returnUnsol).res = s.res := rfl
@[simp] theorem State.returnUnsol_fetch (s : State) : (s.returnUnsol).fetch = s.fetch := rfl
@[simp] theorem State.returnUnsol_susp (s : State) : (s.returnUnsol).susp = s.susp := rfl
@[simp] theorem State.returnUnsol_port (s : State) : (s.returnUnsol).port = s.port := rfl
@[simp] theorem State.returnUnsol_pending (s : State) : (s.returnUnsol).pending = s.pending := rfl

/-! ### queueReport -/

@[simp] theorem State.queueReport_ctrl (s : State) (r : Report) : (s.queueReport r).ctrl = s.ctrl := rfl
@[simp] theorem State.queueReport_irq (s : State) (r : Report) : (s.queueReport r).irq = s.irq := rfl
@[simp] theorem State.queueReport_line (s : State) (r : Report) : (s.queueReport r).line = s.line := rfl
@[simp] theorem State.queueReport_link (s : State) (r : Report) : (s.queueReport r).link = s.link := rfl
@[simp] theorem State.queueReport_stations (s : State) (r : Report) : (s.queueReport r).stations = s.stations := rfl
@[simp] theorem State.queueReport_store (s : State) (r : Report) : (s.queueReport r).store = s.store := rfl
@[simp] theorem State.queueReport_arb (s : State) (r : Report) : (s.queueReport r).arb = s.arb := rfl
@[simp] theorem State.queueReport_res (s : State) (r : Report) : (s.queueReport r).res = s.res := rfl
@[simp] theorem State.queueReport_fetch (s : State) (r : Report) : (s.queueReport r).fetch = s.fetch := rfl
@[simp] theorem State.queueReport_susp (s : State) (r : Report) : (s.queueReport r).susp = s.susp := rfl
@[simp] theorem State.queueReport_port (s : State) (r : Report) : (s.queueReport r).port = s.port := rfl
@[simp] theorem State.queueReport_pending (s : State) (r : Report) : (s.queueReport r).pending = s.pending := rfl

/-! ### lineUsed -/

@[simp] theorem State.lineUsed_ctrl (s : State) : (s.lineUsed).ctrl = s.ctrl := rfl
@[simp] theorem State.lineUsed_irq (s : State) : (s.lineUsed).irq = s.irq := rfl
@[simp] theorem State.lineUsed_line (s : State) : (s.lineUsed).line = s.line := rfl
@[simp] theorem State.lineUsed_stations (s : State) : (s.lineUsed).stations = s.stations := rfl
@[simp] theorem State.lineUsed_store (s : State) : (s.lineUsed).store = s.store := rfl
@[simp] theorem State.lineUsed_arb (s : State) : (s.lineUsed).arb = s.arb := rfl
@[simp] theorem State.lineUsed_res (s : State) : (s.lineUsed).res = s.res := rfl
@[simp] theorem State.lineUsed_fetch (s : State) : (s.lineUsed).fetch = s.fetch := rfl
@[simp] theorem State.lineUsed_post (s : State) : (s.lineUsed).post = s.post := rfl
@[simp] theorem State.lineUsed_susp (s : State) : (s.lineUsed).susp = s.susp := rfl
@[simp] theorem State.lineUsed_port (s : State) : (s.lineUsed).port = s.port := rfl
@[simp] theorem State.lineUsed_pending (s : State) : (s.lineUsed).pending = s.pending := rfl

/-! ### linkIdle -/

@[simp] theorem State.linkIdle_ctrl (s : State) : (s.linkIdle).ctrl = s.ctrl := rfl
@[simp] theorem State.linkIdle_irq (s : State) : (s.linkIdle).irq = s.irq := rfl
@[simp] theorem State.linkIdle_line (s : State) : (s.linkIdle).line = s.line := rfl
@[simp] theorem State.linkIdle_stations (s : State) : (s.linkIdle).stations = s.stations := rfl
@[simp] theorem State.linkIdle_store (s : State) : (s.linkIdle).store = s.store := rfl
@[simp] theorem State.linkIdle_arb (s : State) : (s.linkIdle).arb = s.arb := rfl
@[simp] theorem State.linkIdle_res (s : State) : (s.linkIdle).res = s.res := rfl
@[simp] theorem State.linkIdle_fetch (s : State) : (s.linkIdle).fetch = s.fetch := rfl
@[simp] theorem State.linkIdle_post (s : State) : (s.linkIdle).post = s.post := rfl
@[simp] theorem State.linkIdle_susp (s : State) : (s.linkIdle).susp = s.susp := rfl
@[simp] theorem State.linkIdle_port (s : State) : (s.linkIdle).port = s.port := rfl
@[simp] theorem State.linkIdle_pending (s : State) : (s.linkIdle).pending = s.pending := rfl

/-! ### releaseLine -/

@[simp] theorem State.releaseLine_ctrl (s : State) : (s.releaseLine).ctrl = s.ctrl := rfl
@[simp] theorem State.releaseLine_irq (s : State) : (s.releaseLine).irq = s.irq := rfl
@[simp] theorem State.releaseLine_line (s : State) : (s.releaseLine).line = s.line := rfl
@[simp] theorem State.releaseLine_stations (s : State) : (s.releaseLine).stations = s.stations := rfl
@[simp] theorem State.releaseLine_store (s : State) : (s.releaseLine).store = s.store := rfl
@[simp] theorem State.releaseLine_arb (s : State) : (s.releaseLine).arb = s.arb := rfl
@[simp] theorem State.releaseLine_res (s : State) : (s.releaseLine).res = s.res := rfl
@[simp] theorem State.releaseLine_fetch (s : State) : (s.releaseLine).fetch = s.fetch := rfl
@[simp] theorem State.releaseLine_post (s : State) : (s.releaseLine).post = s.post := rfl
@[simp] theorem State.releaseLine_susp (s : State) : (s.releaseLine).susp = s.susp := rfl
@[simp] theorem State.releaseLine_port (s : State) : (s.releaseLine).port = s.port := rfl
@[simp] theorem State.releaseLine_pending (s : State) : (s.releaseLine).pending = s.pending := rfl

/-! ### setIndex -/

@[simp] theorem State.setIndex_ctrl (s : State) : (s.setIndex).ctrl = s.ctrl := rfl
@[simp] theorem State.setIndex_line (s : State) : (s.setIndex).line = s.line := rfl
@[simp] theorem State.setIndex_link (s : State) : (s.setIndex).link = s.link := rfl
@[simp] theorem State.setIndex_stations (s : State) : (s.setIndex).stations = s.stations := rfl
@[simp] theorem State.setIndex_store (s : State) : (s.setIndex).store = s.store := rfl
@[simp] theorem State.setIndex_arb (s : State) : (s.setIndex).arb = s.arb := rfl
@[simp] theorem State.setIndex_res (s : State) : (s.setIndex).res = s.res := rfl
@[simp] theorem State.setIndex_fetch (s : State) : (s.setIndex).fetch = s.fetch := rfl
@[simp] theorem State.setIndex_post (s : State) : (s.setIndex).post = s.post := rfl
@[simp] theorem State.setIndex_susp (s : State) : (s.setIndex).susp = s.susp := rfl
@[simp] theorem State.setIndex_port (s : State) : (s.setIndex).port = s.port := rfl
@[simp] theorem State.setIndex_pending (s : State) : (s.setIndex).pending = s.pending := rfl

/-! ### setStack -/

@[simp] theorem State.setStack_ctrl (s : State) (l : List SearchRange) : (s.setStack l).ctrl = s.ctrl := rfl
@[simp] theorem State.setStack_irq (s : State) (l : List SearchRange) : (s.setStack l).irq = s.irq := rfl
@[simp] theorem State.setStack_line (s : State) (l : List SearchRange) : (s.setStack l).line = s.line := rfl
@[simp] theorem State.setStack_link (s : State) (l : List SearchRange) : (s.setStack l).link = s.link := rfl
@[simp] theorem State.setStack_stations (s : State) (l : List SearchRange) : (s.setStack l).stations = s.stations := rfl
@[simp] theorem State.setStack_store (s : State) (l : List SearchRange) : (s.setStack l).store = s.store := rfl
@[simp] theorem State.setStack_arb (s : State) (l : List SearchRange) : (s.setStack l).arb = s.arb := rfl
@[simp] theorem State.setStack_fetch (s : State) (l : List SearchRange) : (s.setStack l).fetch = s.fetch := rfl
@[simp] theorem State.setStack_post (s : State) (l : List SearchRange) : (s.setStack l).post = s.post := rfl
@[simp] theorem State.setStack_susp (s : State) (l : List SearchRange) : (s.setStack l).susp = s.susp := rfl
@[simp] theorem State.setStack_port (s : State) (l : List SearchRange) : (s.setStack l).port = s.port := rfl
@[simp] theorem State.setStack_pending (s : State) (l : List SearchRange) : (s.setStack l).pending = s.pending := rfl

/-! ### stepOver -/

@[simp] theorem State.stepOver_ctrl (s : State) : (s.stepOver).ctrl = s.ctrl := rfl
@[simp] theorem State.stepOver_irq (s : State) : (s.stepOver).irq = s.irq := rfl
@[simp] theorem State.stepOver_line (s : State) : (s.stepOver).line = s.line := rfl
@[simp] theorem State.stepOver_link (s : State) : (s.stepOver).link = s.link := rfl
@[simp] theorem State.stepOver_stations (s : State) : (s.stepOver).stations = s.stations := rfl
@[simp] theorem State.stepOver_store (s : State) : (s.stepOver).store = s.store := rfl
@[simp] theorem State.stepOver_arb (s : State) : (s.stepOver).arb = s.arb := rfl
@[simp] theorem State.stepOver_fetch (s : State) : (s.stepOver).fetch = s.fetch := rfl
@[simp] theorem State.stepOver_post (s : State) : (s.stepOver).post = s.post := rfl
@[simp] theorem State.stepOver_susp (s : State) : (s.stepOver).susp = s.susp := rfl
@[simp] theorem State.stepOver_port (s : State) : (s.stepOver).port = s.port := rfl
@[simp] theorem State.stepOver_pending (s : State) : (s.stepOver).pending = s.pending := rfl

/-! ### setWorkCount -/

@[simp] theorem State.setWorkCount_ctrl (s : State) (n : Nat) : (s.setWorkCount n).ctrl = s.ctrl := rfl
@[simp] theorem State.setWorkCount_irq (s : State) (n : Nat) : (s.setWorkCount n).irq = s.irq := rfl
@[simp] theorem State.setWorkCount_line (s : State) (n : Nat) : (s.setWorkCount n).line = s.line := rfl
@[simp] theorem State.setWorkCount_link (s : State) (n : Nat) : (s.setWorkCount n).link = s.link := rfl
@[simp] theorem State.setWorkCount_stations (s : State) (n : Nat) : (s.setWorkCount n).stations = s.stations := rfl
@[simp] theorem State.setWorkCount_store (s : State) (n : Nat) : (s.setWorkCount n).store = s.store := rfl
@[simp] theorem State.setWorkCount_res (s : State) (n : Nat) : (s.setWorkCount n).res = s.res := rfl
@[simp] theorem State.setWorkCount_fetch (s : State) (n : Nat) : (s.setWorkCount n).fetch = s.fetch := rfl
@[simp] theorem State.setWorkCount_post (s : State) (n : Nat) : (s.setWorkCount n).post = s.post := rfl
@[simp] theorem State.setWorkCount_susp (s : State) (n : Nat) : (s.setWorkCount n).susp = s.susp := rfl
@[simp] theorem State.setWorkCount_port (s : State) (n : Nat) : (s.setWorkCount n).port = s.port := rfl
@[simp] theorem State.setWorkCount_pending (s : State) (n : Nat) : (s.setWorkCount n).pending = s.pending := rfl

/-! ### startRecord -/

@[simp] theorem State.startRecord_ctrl (s : State) (c : RecSource) (d : List Byte) : (s.startRecord c d).ctrl = s.ctrl := rfl
@[simp] theorem State.startRecord_irq (s : State) (c : RecSource) (d : List Byte) : (s.startRecord c d).irq = s.irq := rfl
@[simp] theorem State.startRecord_line (s : State) (c : RecSource) (d : List Byte) : (s.startRecord c d).line = s.line := rfl
@[simp] theorem State.startRecord_link (s : State) (c : RecSource) (d : List Byte) : (s.startRecord c d).link = s.link := rfl
@[simp] theorem State.startRecord_stations (s : State) (c : RecSource) (d : List Byte) : (s.startRecord c d).stations = s.stations := rfl
@[simp] theorem State.startRecord_store (s : State) (c : RecSource) (d : List Byte) : (s.startRecord c d).store = s.store := rfl
@[simp] theorem State.startRecord_arb (s : State) (c : RecSource) (d : List Byte) : (s.startRecord c d).arb = s.arb := rfl
@[simp] theorem State.startRecord_res (s : State) (c : RecSource) (d : List Byte) : (s.startRecord c d).res = s.res := rfl
@[simp] theorem State.startRecord_fetch (s : State) (c : RecSource) (d : List Byte) : (s.startRecord c d).fetch = s.fetch := rfl
@[simp] theorem State.startRecord_post (s : State) (c : RecSource) (d : List Byte) : (s.startRecord c d).post = s.post := rfl
@[simp] theorem State.startRecord_susp (s : State) (c : RecSource) (d : List Byte) : (s.startRecord c d).susp = s.susp := rfl
@[simp] theorem State.startRecord_pending (s : State) (c : RecSource) (d : List Byte) : (s.startRecord c d).pending = s.pending := rfl

/-! ### takeWriteCredit -/

@[simp] theorem State.takeWriteCredit_ctrl (s : State) : (s.takeWriteCredit).ctrl = s.ctrl := rfl
@[simp] theorem State.takeWriteCredit_irq (s : State) : (s.takeWriteCredit).irq = s.irq := rfl
@[simp] theorem State.takeWriteCredit_line (s : State) : (s.takeWriteCredit).line = s.line := rfl
@[simp] theorem State.takeWriteCredit_link (s : State) : (s.takeWriteCredit).link = s.link := rfl
@[simp] theorem State.takeWriteCredit_stations (s : State) : (s.takeWriteCredit).stations = s.stations := rfl
@[simp] theorem State.takeWriteCredit_store (s : State) : (s.takeWriteCredit).store = s.store := rfl
@[simp] theorem State.takeWriteCredit_arb (s : State) : (s.takeWriteCredit).arb = s.arb := rfl
@[simp] theorem State.takeWriteCredit_res (s : State) : (s.takeWriteCredit).res = s.res := rfl
@[simp] theorem State.takeWriteCredit_fetch (s : State) : (s.takeWriteCredit).fetch = s.fetch := rfl
@[simp] theorem State.takeWriteCredit_susp (s : State) : (s.takeWriteCredit).susp = s.susp := rfl
@[simp] theorem State.takeWriteCredit_port (s : State) : (s.takeWriteCredit).port = s.port := rfl
@[simp] theorem State.takeWriteCredit_pending (s : State) : (s.takeWriteCredit).pending = s.pending := rfl

/-! ### notify -/

@[simp] theorem State.notify_ctrl (s : State) (a : StationId) (c : NoticeCause) : (s.notify a c).ctrl = s.ctrl := rfl
@[simp] theorem State.notify_irq (s : State) (a : StationId) (c : NoticeCause) : (s.notify a c).irq = s.irq := rfl
@[simp] theorem State.notify_line (s : State) (a : StationId) (c : NoticeCause) : (s.notify a c).line = s.line := rfl
@[simp] theorem State.notify_link (s : State) (a : StationId) (c : NoticeCause) : (s.notify a c).link = s.link := rfl
@[simp] theorem State.notify_store (s : State) (a : StationId) (c : NoticeCause) : (s.notify a c).store = s.store := rfl
@[simp] theorem State.notify_arb (s : State) (a : StationId) (c : NoticeCause) : (s.notify a c).arb = s.arb := rfl
@[simp] theorem State.notify_res (s : State) (a : StationId) (c : NoticeCause) : (s.notify a c).res = s.res := rfl
@[simp] theorem State.notify_fetch (s : State) (a : StationId) (c : NoticeCause) : (s.notify a c).fetch = s.fetch := rfl
@[simp] theorem State.notify_post (s : State) (a : StationId) (c : NoticeCause) : (s.notify a c).post = s.post := rfl
@[simp] theorem State.notify_susp (s : State) (a : StationId) (c : NoticeCause) : (s.notify a c).susp = s.susp := rfl
@[simp] theorem State.notify_port (s : State) (a : StationId) (c : NoticeCause) : (s.notify a c).port = s.port := rfl
@[simp] theorem State.notify_pending (s : State) (a : StationId) (c : NoticeCause) : (s.notify a c).pending = s.pending := rfl

/-! ### setResync -/

@[simp] theorem State.setResync_ctrl (s : State) (a : StationId) : (s.setResync a).ctrl = s.ctrl := rfl
@[simp] theorem State.setResync_irq (s : State) (a : StationId) : (s.setResync a).irq = s.irq := rfl
@[simp] theorem State.setResync_line (s : State) (a : StationId) : (s.setResync a).line = s.line := rfl
@[simp] theorem State.setResync_link (s : State) (a : StationId) : (s.setResync a).link = s.link := rfl
@[simp] theorem State.setResync_store (s : State) (a : StationId) : (s.setResync a).store = s.store := rfl
@[simp] theorem State.setResync_arb (s : State) (a : StationId) : (s.setResync a).arb = s.arb := rfl
@[simp] theorem State.setResync_res (s : State) (a : StationId) : (s.setResync a).res = s.res := rfl
@[simp] theorem State.setResync_fetch (s : State) (a : StationId) : (s.setResync a).fetch = s.fetch := rfl
@[simp] theorem State.setResync_post (s : State) (a : StationId) : (s.setResync a).post = s.post := rfl
@[simp] theorem State.setResync_susp (s : State) (a : StationId) : (s.setResync a).susp = s.susp := rfl
@[simp] theorem State.setResync_port (s : State) (a : StationId) : (s.setResync a).port = s.port := rfl
@[simp] theorem State.setResync_pending (s : State) (a : StationId) : (s.setResync a).pending = s.pending := rfl

/-! ### beginTurn -/

@[simp] theorem State.beginTurn_ctrl (s : State) (p : Purpose) (k : MKind) (im : Image) (l : Option Nat) (n : Nat) : (s.beginTurn p k im l n).ctrl = s.ctrl := rfl
@[simp] theorem State.beginTurn_irq (s : State) (p : Purpose) (k : MKind) (im : Image) (l : Option Nat) (n : Nat) : (s.beginTurn p k im l n).irq = s.irq := rfl
@[simp] theorem State.beginTurn_line (s : State) (p : Purpose) (k : MKind) (im : Image) (l : Option Nat) (n : Nat) : (s.beginTurn p k im l n).line = s.line := rfl
@[simp] theorem State.beginTurn_stations (s : State) (p : Purpose) (k : MKind) (im : Image) (l : Option Nat) (n : Nat) : (s.beginTurn p k im l n).stations = s.stations := rfl
@[simp] theorem State.beginTurn_store (s : State) (p : Purpose) (k : MKind) (im : Image) (l : Option Nat) (n : Nat) : (s.beginTurn p k im l n).store = s.store := rfl
@[simp] theorem State.beginTurn_arb (s : State) (p : Purpose) (k : MKind) (im : Image) (l : Option Nat) (n : Nat) : (s.beginTurn p k im l n).arb = s.arb := rfl
@[simp] theorem State.beginTurn_res (s : State) (p : Purpose) (k : MKind) (im : Image) (l : Option Nat) (n : Nat) : (s.beginTurn p k im l n).res = s.res := rfl
@[simp] theorem State.beginTurn_fetch (s : State) (p : Purpose) (k : MKind) (im : Image) (l : Option Nat) (n : Nat) : (s.beginTurn p k im l n).fetch = s.fetch := rfl
@[simp] theorem State.beginTurn_post (s : State) (p : Purpose) (k : MKind) (im : Image) (l : Option Nat) (n : Nat) : (s.beginTurn p k im l n).post = s.post := rfl
@[simp] theorem State.beginTurn_susp (s : State) (p : Purpose) (k : MKind) (im : Image) (l : Option Nat) (n : Nat) : (s.beginTurn p k im l n).susp = s.susp := rfl
@[simp] theorem State.beginTurn_port (s : State) (p : Purpose) (k : MKind) (im : Image) (l : Option Nat) (n : Nat) : (s.beginTurn p k im l n).port = s.port := rfl
@[simp] theorem State.beginTurn_pending (s : State) (p : Purpose) (k : MKind) (im : Image) (l : Option Nat) (n : Nat) : (s.beginTurn p k im l n).pending = s.pending := rfl

/-! ### beginStationTurn -/

@[simp] theorem State.beginStationTurn_ctrl (s : State) (p : Purpose) (k : MKind) (a : StationId) (b : Bool) (d : List Byte) : (s.beginStationTurn p k a b d).ctrl = s.ctrl := rfl
@[simp] theorem State.beginStationTurn_irq (s : State) (p : Purpose) (k : MKind) (a : StationId) (b : Bool) (d : List Byte) : (s.beginStationTurn p k a b d).irq = s.irq := rfl
@[simp] theorem State.beginStationTurn_line (s : State) (p : Purpose) (k : MKind) (a : StationId) (b : Bool) (d : List Byte) : (s.beginStationTurn p k a b d).line = s.line := rfl
@[simp] theorem State.beginStationTurn_stations (s : State) (p : Purpose) (k : MKind) (a : StationId) (b : Bool) (d : List Byte) : (s.beginStationTurn p k a b d).stations = s.stations := rfl
@[simp] theorem State.beginStationTurn_store (s : State) (p : Purpose) (k : MKind) (a : StationId) (b : Bool) (d : List Byte) : (s.beginStationTurn p k a b d).store = s.store := rfl
@[simp] theorem State.beginStationTurn_arb (s : State) (p : Purpose) (k : MKind) (a : StationId) (b : Bool) (d : List Byte) : (s.beginStationTurn p k a b d).arb = s.arb := rfl
@[simp] theorem State.beginStationTurn_res (s : State) (p : Purpose) (k : MKind) (a : StationId) (b : Bool) (d : List Byte) : (s.beginStationTurn p k a b d).res = s.res := rfl
@[simp] theorem State.beginStationTurn_fetch (s : State) (p : Purpose) (k : MKind) (a : StationId) (b : Bool) (d : List Byte) : (s.beginStationTurn p k a b d).fetch = s.fetch := rfl
@[simp] theorem State.beginStationTurn_post (s : State) (p : Purpose) (k : MKind) (a : StationId) (b : Bool) (d : List Byte) : (s.beginStationTurn p k a b d).post = s.post := rfl
@[simp] theorem State.beginStationTurn_susp (s : State) (p : Purpose) (k : MKind) (a : StationId) (b : Bool) (d : List Byte) : (s.beginStationTurn p k a b d).susp = s.susp := rfl
@[simp] theorem State.beginStationTurn_port (s : State) (p : Purpose) (k : MKind) (a : StationId) (b : Bool) (d : List Byte) : (s.beginStationTurn p k a b d).port = s.port := rfl
@[simp] theorem State.beginStationTurn_pending (s : State) (p : Purpose) (k : MKind) (a : StationId) (b : Bool) (d : List Byte) : (s.beginStationTurn p k a b d).pending = s.pending := rfl

/-! ### slotInTurn -/

@[simp] theorem State.slotInTurn_ctrl (s : State) (i : SlotId) : (s.slotInTurn i).ctrl = s.ctrl := rfl
@[simp] theorem State.slotInTurn_irq (s : State) (i : SlotId) : (s.slotInTurn i).irq = s.irq := rfl
@[simp] theorem State.slotInTurn_line (s : State) (i : SlotId) : (s.slotInTurn i).line = s.line := rfl
@[simp] theorem State.slotInTurn_link (s : State) (i : SlotId) : (s.slotInTurn i).link = s.link := rfl
@[simp] theorem State.slotInTurn_stations (s : State) (i : SlotId) : (s.slotInTurn i).stations = s.stations := rfl
@[simp] theorem State.slotInTurn_arb (s : State) (i : SlotId) : (s.slotInTurn i).arb = s.arb := rfl
@[simp] theorem State.slotInTurn_res (s : State) (i : SlotId) : (s.slotInTurn i).res = s.res := rfl
@[simp] theorem State.slotInTurn_fetch (s : State) (i : SlotId) : (s.slotInTurn i).fetch = s.fetch := rfl
@[simp] theorem State.slotInTurn_post (s : State) (i : SlotId) : (s.slotInTurn i).post = s.post := rfl
@[simp] theorem State.slotInTurn_susp (s : State) (i : SlotId) : (s.slotInTurn i).susp = s.susp := rfl
@[simp] theorem State.slotInTurn_port (s : State) (i : SlotId) : (s.slotInTurn i).port = s.port := rfl
@[simp] theorem State.slotInTurn_pending (s : State) (i : SlotId) : (s.slotInTurn i).pending = s.pending := rfl

/-! ### Reading back -/

@[simp] theorem State.stn_setStn_same (s : State) (a : StationId) (x : Station) : (s.setStn a x).stn a = x := by
  simp [State.stn, State.setStn]

theorem State.stn_setStn_other (s : State) {a b : StationId} (x : Station) (h : b ≠ a) : (s.setStn a x).stn b = s.stn b := by
  have : a.val ≠ b.val := fun e => h (Fin.ext e.symm)
  simp [State.stn, State.setStn, this]

@[simp] theorem State.slot_setSlot_same (s : State) (i : SlotId) (x : Slot) : (s.setSlot i x).slot i = x := by
  simp [State.slot, State.setSlot]

theorem State.slot_setSlot_other (s : State) {i j : SlotId} (x : Slot) (h : j ≠ i) : (s.setSlot i x).slot j = s.slot j := by
  have : i.val ≠ j.val := fun e => h (Fin.ext e.symm)
  simp [State.slot, State.setSlot, this]

@[simp] theorem State.list_setList_same (s : State) (a : StationId) (l : List SlotId) : (s.setList a l).list a = l := by
  simp [State.list, State.setList]

theorem State.list_setList_other (s : State) {a b : StationId} (l : List SlotId) (h : b ≠ a) :
    (s.setList a l).list b = s.list b := by
  have : a.val ≠ b.val := fun e => h (Fin.ext e.symm)
  simp [State.list, State.setList, this]

@[simp] theorem State.barrier_setBarrier_same (s : State) (r : RingId) (l : List SlotId) :
    (s.setBarrier r l).barrier r = l := by
  simp [State.barrier, State.setBarrier]

theorem State.barrier_setBarrier_other (s : State) {r q : RingId} (l : List SlotId) (h : q ≠ r) :
    (s.setBarrier r l).barrier q = s.barrier q := by
  have : r.val ≠ q.val := fun e => h (Fin.ext e.symm)
  simp [State.barrier, State.setBarrier, this]

@[simp] theorem State.ring_setRing_same (s : State) (r : RingId) (x : Ring) : (s.setRing r x).ring r = x := by
  simp [State.ring, State.setRing]

theorem State.ring_setRing_other (s : State) {r q : RingId} (x : Ring) (h : q ≠ r) : (s.setRing r x).ring q = s.ring q := by
  have : r.val ≠ q.val := fun e => h (Fin.ext e.symm)
  simp [State.ring, State.setRing, this]

@[simp] theorem State.xfer_setXfer_same (s : State) (i : SlotId) (x : Option Transfer) : (s.setXfer i x).xfer i = x := by
  simp [State.xfer, State.setXfer]

theorem State.xfer_setXfer_other (s : State) {i j : SlotId} (x : Option Transfer) (h : j ≠ i) :
    (s.setXfer i x).xfer j = s.xfer j := by
  have : i.val ≠ j.val := fun e => h (Fin.ext e.symm)
  simp [State.xfer, State.setXfer, this]

/-! ### Views that an update of another block leaves as they are -/

@[simp] theorem State.slot_setStn (s : State) (a : StationId) (x : Station) (i : SlotId) : (s.setStn a x).slot i = s.slot i := rfl
@[simp] theorem State.list_setStn (s : State) (a b : StationId) (x : Station) : (s.setStn a x).list b = s.list b := rfl
@[simp] theorem State.ring_setStn (s : State) (a : StationId) (x : Station) (r : RingId) : (s.setStn a x).ring r = s.ring r := rfl
@[simp] theorem State.xfer_setStn (s : State) (a : StationId) (x : Station) (i : SlotId) : (s.setStn a x).xfer i = s.xfer i := rfl
@[simp] theorem State.stn_setSlot (s : State) (i : SlotId) (x : Slot) (a : StationId) : (s.setSlot i x).stn a = s.stn a := rfl
@[simp] theorem State.list_setSlot (s : State) (i : SlotId) (x : Slot) (a : StationId) : (s.setSlot i x).list a = s.list a := rfl
@[simp] theorem State.ring_setSlot (s : State) (i : SlotId) (x : Slot) (r : RingId) : (s.setSlot i x).ring r = s.ring r := rfl
@[simp] theorem State.xfer_setSlot (s : State) (i j : SlotId) (x : Slot) : (s.setSlot i x).xfer j = s.xfer j := rfl
@[simp] theorem State.turnSlot_setSlot (s : State) (i : SlotId) (x : Slot) : (s.setSlot i x).turnSlot = s.turnSlot := rfl
@[simp] theorem State.turnSlot_setStn (s : State) (a : StationId) (x : Station) : (s.setStn a x).turnSlot = s.turnSlot := rfl
@[simp] theorem State.stn_setList (s : State) (a b : StationId) (l : List SlotId) : (s.setList a l).stn b = s.stn b := rfl
@[simp] theorem State.slot_setList (s : State) (a : StationId) (l : List SlotId) (i : SlotId) :
    (s.setList a l).slot i = s.slot i := rfl
@[simp] theorem State.slot_setRing (s : State) (r : RingId) (x : Ring) (i : SlotId) : (s.setRing r x).slot i = s.slot i := rfl
@[simp] theorem State.list_setRing (s : State) (r : RingId) (x : Ring) (a : StationId) : (s.setRing r x).list a = s.list a := rfl
@[simp] theorem State.stn_setRing (s : State) (r : RingId) (x : Ring) (a : StationId) : (s.setRing r x).stn a = s.stn a := rfl
@[simp] theorem State.slot_setXfer (s : State) (i j : SlotId) (x : Option Transfer) : (s.setXfer i x).slot j = s.slot j := rfl
@[simp] theorem State.stn_setXfer (s : State) (i : SlotId) (x : Option Transfer) (a : StationId) :
    (s.setXfer i x).stn a = s.stn a := rfl
@[simp] theorem State.list_setXfer (s : State) (i : SlotId) (x : Option Transfer) (a : StationId) :
    (s.setXfer i x).list a = s.list a := rfl
@[simp] theorem State.ring_setXfer (s : State) (i : SlotId) (x : Option Transfer) (r : RingId) :
    (s.setXfer i x).ring r = s.ring r := rfl

/-! ### What single updates write -/

@[simp] theorem State.setCtrl_state (s : State) (c : CtrlState) : (s.setCtrl c).ctrl.state = c := rfl
@[simp] theorem State.setResult_state (s : State) (c : CmdResult) : (s.setResult c).ctrl.state = s.ctrl.state := rfl
@[simp] theorem State.setResult_lastResult (s : State) (c : CmdResult) : (s.setResult c).ctrl.lastResult = c := rfl
@[simp] theorem State.setSeq_seq (s : State) (q : Sequence) : (s.setSeq q).susp.seq = q := rfl
@[simp] theorem State.setSeq_imageBase (s : State) (q : Sequence) : (s.setSeq q).susp.imageBase = s.susp.imageBase := rfl
@[simp] theorem State.addPost_postList (s : State) (e : PostEntry) :
    (s.addPost e).store.postList = s.store.postList ++ [e] := rfl
@[simp] theorem State.finish_postList (s : State) (i : SlotId) (st : Status) :
    (s.finish i st).store.postList = s.store.postList ++ [.slot i] := rfl
@[simp] theorem State.finish_slot_same (s : State) (i : SlotId) (st : Status) :
    (s.finish i st).slot i = { s.slot i with life := .done, result := some st, held := none } :=
  State.slot_setSlot_same s i _
theorem State.finish_slot_other (s : State) {i j : SlotId} (st : Status) (h : j ≠ i) : (s.finish i st).slot j = s.slot j :=
  State.slot_setSlot_other s _ h

end Sys2Proof.Machine
end

