-- ==== Sys2Proof/Laws/Frames.lean ====
section
/-! SUPPORT. What each shared operation can change at most: one lemma per operation, saying which parts of the state it leaves. -/

namespace Sys2Proof.Machine

/-- `t` differs from `s` at most in the store and the station table. -/
structure OnlyTables (s t : State) : Prop where
  ctrl : t.ctrl = s.ctrl
  irq : t.irq = s.irq
  line : t.line = s.line
  link : t.link = s.link
  arb : t.arb = s.arb
  res : t.res = s.res
  fetch : t.fetch = s.fetch
  post : t.post = s.post
  susp : t.susp = s.susp
  port : t.port = s.port
  pending : t.pending = s.pending

theorem OnlyTables.refl (s : State) : OnlyTables s s := ⟨rfl, rfl, rfl, rfl, rfl, rfl, rfl, rfl, rfl, rfl, rfl⟩

theorem OnlyTables.trans {s t u : State} (h : OnlyTables s t) (k : OnlyTables t u) : OnlyTables s u :=
  ⟨k.ctrl.trans h.ctrl, k.irq.trans h.irq, k.line.trans h.line, k.link.trans h.link, k.arb.trans h.arb, k.res.trans h.res, k.fetch.trans h.fetch, k.post.trans h.post, k.susp.trans h.susp, k.port.trans h.port, k.pending.trans h.pending⟩

theorem OnlyTables.foldl {α : Type} (f : State → α → State) (h : ∀ s x, OnlyTables s (f s x)) (l : List α) (s : State) :
    OnlyTables s (l.foldl f s) := by
  induction l generalizing s with
  | nil => exact OnlyTables.refl s
  | cons x l ih => exact (h s x).trans (ih _)

/-- `t` differs from `s` at most in the store, the station table and the port. -/
structure OnlyTablesPort (s t : State) : Prop where
  ctrl : t.ctrl = s.ctrl
  irq : t.irq = s.irq
  line : t.line = s.line
  link : t.link = s.link
  arb : t.arb = s.arb
  res : t.res = s.res
  fetch : t.fetch = s.fetch
  post : t.post = s.post
  susp : t.susp = s.susp
  pending : t.pending = s.pending

theorem OnlyTablesPort.refl (s : State) : OnlyTablesPort s s := ⟨rfl, rfl, rfl, rfl, rfl, rfl, rfl, rfl, rfl, rfl⟩

theorem OnlyTablesPort.trans {s t u : State} (h : OnlyTablesPort s t) (k : OnlyTablesPort t u) : OnlyTablesPort s u :=
  ⟨k.ctrl.trans h.ctrl, k.irq.trans h.irq, k.line.trans h.line, k.link.trans h.link, k.arb.trans h.arb, k.res.trans h.res, k.fetch.trans h.fetch, k.post.trans h.post, k.susp.trans h.susp, k.pending.trans h.pending⟩

theorem OnlyTablesPort.foldl {α : Type} (f : State → α → State) (h : ∀ s x, OnlyTablesPort s (f s x)) (l : List α) (s : State) :
    OnlyTablesPort s (l.foldl f s) := by
  induction l generalizing s with
  | nil => exact OnlyTablesPort.refl s
  | cons x l ih => exact (h s x).trans (ih _)

/-- `t` differs from `s` at most in the store, the station table, the fetcher and the port. -/
structure OnlyWork (s t : State) : Prop where
  ctrl : t.ctrl = s.ctrl
  irq : t.irq = s.irq
  line : t.line = s.line
  link : t.link = s.link
  arb : t.arb = s.arb
  res : t.res = s.res
  post : t.post = s.post
  susp : t.susp = s.susp
  pending : t.pending = s.pending

theorem OnlyWork.refl (s : State) : OnlyWork s s := ⟨rfl, rfl, rfl, rfl, rfl, rfl, rfl, rfl, rfl⟩

theorem OnlyWork.trans {s t u : State} (h : OnlyWork s t) (k : OnlyWork t u) : OnlyWork s u :=
  ⟨k.ctrl.trans h.ctrl, k.irq.trans h.irq, k.line.trans h.line, k.link.trans h.link, k.arb.trans h.arb, k.res.trans h.res, k.post.trans h.post, k.susp.trans h.susp, k.pending.trans h.pending⟩

theorem OnlyWork.foldl {α : Type} (f : State → α → State) (h : ∀ s x, OnlyWork s (f s x)) (l : List α) (s : State) :
    OnlyWork s (l.foldl f s) := by
  induction l generalizing s with
  | nil => exact OnlyWork.refl s
  | cons x l ih => exact (h s x).trans (ih _)

/-- `t` differs from `s` at most in the poster and the resolver. -/
structure OnlyResolver (s t : State) : Prop where
  ctrl : t.ctrl = s.ctrl
  irq : t.irq = s.irq
  line : t.line = s.line
  link : t.link = s.link
  stations : t.stations = s.stations
  store : t.store = s.store
  arb : t.arb = s.arb
  fetch : t.fetch = s.fetch
  susp : t.susp = s.susp
  port : t.port = s.port
  pending : t.pending = s.pending

theorem OnlyResolver.refl (s : State) : OnlyResolver s s := ⟨rfl, rfl, rfl, rfl, rfl, rfl, rfl, rfl, rfl, rfl, rfl⟩

theorem OnlyResolver.trans {s t u : State} (h : OnlyResolver s t) (k : OnlyResolver t u) : OnlyResolver s u :=
  ⟨k.ctrl.trans h.ctrl, k.irq.trans h.irq, k.line.trans h.line, k.link.trans h.link, k.stations.trans h.stations, k.store.trans h.store, k.arb.trans h.arb, k.fetch.trans h.fetch, k.susp.trans h.susp, k.port.trans h.port, k.pending.trans h.pending⟩

theorem OnlyResolver.foldl {α : Type} (f : State → α → State) (h : ∀ s x, OnlyResolver s (f s x)) (l : List α) (s : State) :
    OnlyResolver s (l.foldl f s) := by
  induction l generalizing s with
  | nil => exact OnlyResolver.refl s
  | cons x l ih => exact (h s x).trans (ih _)

/-- `t` differs from `s` at most in what a turn's end reaches. -/
structure OnlyLine (s t : State) : Prop where
  ctrl : t.ctrl = s.ctrl
  irq : t.irq = s.irq
  line : t.line = s.line
  arb : t.arb = s.arb
  fetch : t.fetch = s.fetch
  susp : t.susp = s.susp
  pending : t.pending = s.pending

theorem OnlyLine.refl (s : State) : OnlyLine s s := ⟨rfl, rfl, rfl, rfl, rfl, rfl, rfl⟩

theorem OnlyLine.trans {s t u : State} (h : OnlyLine s t) (k : OnlyLine t u) : OnlyLine s u :=
  ⟨k.ctrl.trans h.ctrl, k.irq.trans h.irq, k.line.trans h.line, k.arb.trans h.arb, k.fetch.trans h.fetch, k.susp.trans h.susp, k.pending.trans h.pending⟩

theorem OnlyLine.foldl {α : Type} (f : State → α → State) (h : ∀ s x, OnlyLine s (f s x)) (l : List α) (s : State) :
    OnlyLine s (l.foldl f s) := by
  induction l generalizing s with
  | nil => exact OnlyLine.refl s
  | cons x l ih => exact (h s x).trans (ih _)

/-- `t` differs from `s` at most in what a choice of the arbiter reaches. -/
structure OnlyChoice (s t : State) : Prop where
  ctrl : t.ctrl = s.ctrl
  irq : t.irq = s.irq
  line : t.line = s.line
  stations : t.stations = s.stations
  fetch : t.fetch = s.fetch
  susp : t.susp = s.susp
  port : t.port = s.port
  pending : t.pending = s.pending

theorem OnlyChoice.refl (s : State) : OnlyChoice s s := ⟨rfl, rfl, rfl, rfl, rfl, rfl, rfl, rfl⟩

theorem OnlyChoice.trans {s t u : State} (h : OnlyChoice s t) (k : OnlyChoice t u) : OnlyChoice s u :=
  ⟨k.ctrl.trans h.ctrl, k.irq.trans h.irq, k.line.trans h.line, k.stations.trans h.stations, k.fetch.trans h.fetch, k.susp.trans h.susp, k.port.trans h.port, k.pending.trans h.pending⟩

theorem OnlyChoice.foldl {α : Type} (f : State → α → State) (h : ∀ s x, OnlyChoice s (f s x)) (l : List α) (s : State) :
    OnlyChoice s (l.foldl f s) := by
  induction l generalizing s with
  | nil => exact OnlyChoice.refl s
  | cons x l ih => exact (h s x).trans (ih _)

/-- `t` differs from `s` at most in what an event in RUNNING reaches. -/
structure OnlyEvent (s t : State) : Prop where
  ctrl : t.ctrl = s.ctrl
  irq : t.irq = s.irq
  line : t.line = s.line
  susp : t.susp = s.susp
  pending : t.pending = s.pending

theorem OnlyEvent.refl (s : State) : OnlyEvent s s := ⟨rfl, rfl, rfl, rfl, rfl⟩

theorem OnlyEvent.trans {s t u : State} (h : OnlyEvent s t) (k : OnlyEvent t u) : OnlyEvent s u :=
  ⟨k.ctrl.trans h.ctrl, k.irq.trans h.irq, k.line.trans h.line, k.susp.trans h.susp, k.pending.trans h.pending⟩

theorem OnlyEvent.foldl {α : Type} (f : State → α → State) (h : ∀ s x, OnlyEvent s (f s x)) (l : List α) (s : State) :
    OnlyEvent s (l.foldl f s) := by
  induction l generalizing s with
  | nil => exact OnlyEvent.refl s
  | cons x l ih => exact (h s x).trans (ih _)

theorem OnlyTables.toTablesPort {s t : State} (h : OnlyTables s t) : OnlyTablesPort s t := ⟨h.ctrl, h.irq, h.line, h.link, h.arb, h.res, h.fetch, h.post, h.susp, h.pending⟩
theorem OnlyTables.toWork {s t : State} (h : OnlyTables s t) : OnlyWork s t := ⟨h.ctrl, h.irq, h.line, h.link, h.arb, h.res, h.post, h.susp, h.pending⟩
theorem OnlyTables.toLine {s t : State} (h : OnlyTables s t) : OnlyLine s t := ⟨h.ctrl, h.irq, h.line, h.arb, h.fetch, h.susp, h.pending⟩
theorem OnlyTables.toEvent {s t : State} (h : OnlyTables s t) : OnlyEvent s t := ⟨h.ctrl, h.irq, h.line, h.susp, h.pending⟩
theorem OnlyTablesPort.toWork {s t : State} (h : OnlyTablesPort s t) : OnlyWork s t := ⟨h.ctrl, h.irq, h.line, h.link, h.arb, h.res, h.post, h.susp, h.pending⟩
theorem OnlyTablesPort.toLine {s t : State} (h : OnlyTablesPort s t) : OnlyLine s t := ⟨h.ctrl, h.irq, h.line, h.arb, h.fetch, h.susp, h.pending⟩
theorem OnlyTablesPort.toEvent {s t : State} (h : OnlyTablesPort s t) : OnlyEvent s t := ⟨h.ctrl, h.irq, h.line, h.susp, h.pending⟩
theorem OnlyWork.toEvent {s t : State} (h : OnlyWork s t) : OnlyEvent s t := ⟨h.ctrl, h.irq, h.line, h.susp, h.pending⟩
theorem OnlyResolver.toLine {s t : State} (h : OnlyResolver s t) : OnlyLine s t := ⟨h.ctrl, h.irq, h.line, h.arb, h.fetch, h.susp, h.pending⟩
theorem OnlyResolver.toChoice {s t : State} (h : OnlyResolver s t) : OnlyChoice s t := ⟨h.ctrl, h.irq, h.line, h.stations, h.fetch, h.susp, h.port, h.pending⟩
theorem OnlyResolver.toEvent {s t : State} (h : OnlyResolver s t) : OnlyEvent s t := ⟨h.ctrl, h.irq, h.line, h.susp, h.pending⟩
theorem OnlyLine.toEvent {s t : State} (h : OnlyLine s t) : OnlyEvent s t := ⟨h.ctrl, h.irq, h.line, h.susp, h.pending⟩
theorem OnlyChoice.toEvent {s t : State} (h : OnlyChoice s t) : OnlyEvent s t := ⟨h.ctrl, h.irq, h.line, h.susp, h.pending⟩

/-! ### The exchange store -/

theorem State.leaveStation_only (s : State) (a : StationId) (i : SlotId) : OnlyTables s (s.leaveStation a i) := by
  unfold State.leaveStation; split <;> constructor <;> rfl

theorem State.leave_only (s : State) (i : SlotId) : OnlyTables s (s.leave i) := by
  simp only [State.leave]
  split
  · constructor <;> rfl
  · constructor <;> rfl
  · split
    · exact s.leaveStation_only _ i
    · exact .refl s

theorem State.finish_only (s : State) (i : SlotId) (st : Status) : OnlyTables s (s.finish i st) := by constructor <;> rfl

theorem State.endExchange_only (s : State) (i : SlotId) (st : Status) : OnlyTables s (s.endExchange i st) :=
  (s.leave_only i).trans (State.finish_only _ i st)

theorem State.flushFollowers_only (s : State) (c : Status) : OnlyTables s (s.flushFollowers c) :=
  OnlyTables.trans (t := { s with store := { s.store with followers := [] } })
    (by constructor <;> rfl) (OnlyTables.foldl _ (fun t i => State.finish_only t i _) _ _)

theorem State.purge_only (s : State) (a : StationId) (keep : Slot → Bool) (st : Status) : OnlyTables s (s.purge a keep st) :=
  OnlyTables.foldl _ (fun t i => t.endExchange_only i st) _ _

theorem State.fixEarly_only (s : State) (a : StationId) (st : Status) : OnlyTables s (s.fixEarly a st) := by
  unfold State.fixEarly
  split
  · dsimp only; split <;> constructor <;> rfl
  · exact .refl s

theorem State.reorder_only (s : State) (a : StationId) : OnlyTables s (s.reorder a) := by
  unfold State.reorder
  split
  · exact .refl s
  · split <;> constructor <;> rfl

theorem State.testBarrier_only (s : State) (r : RingId) : OnlyTables s (s.testBarrier r) := by
  unfold State.testBarrier
  split
  · exact .refl s
  · split
    · exact .refl s
    · exact s.endExchange_only _ _

/-- A block read that is due is a transaction of the port and nothing else. -/
theorem State.startRead_port (s : State) (a : StationId) : ∃ x, s.startRead a = { s with port := { s.port with xfer := x } } := by
  unfold State.startRead
  split
  · exact ⟨_, rfl⟩
  · exact ⟨s.port.xfer, rfl⟩

theorem State.foldl_startRead_port (l : List StationId) (s : State) :
    ∃ x, l.foldl State.startRead s = { s with port := { s.port with xfer := x } } := by
  induction l generalizing s with
  | nil => exact ⟨s.port.xfer, rfl⟩
  | cons a l ih =>
    obtain ⟨x, hx⟩ := s.startRead_port a
    obtain ⟨y, hy⟩ := ih (s.startRead a)
    exact ⟨y, by rw [List.foldl_cons, hy, hx]⟩

/-- The block reads that fall due change block transfers of the port and nothing else. -/
theorem State.startReads_port (s : State) : ∃ x, s.startReads = { s with port := { s.port with xfer := x } } := by
  unfold State.startReads
  split
  · exact s.foldl_startRead_port _
  · exact ⟨s.port.xfer, rfl⟩

theorem State.startReads_only (s : State) : OnlyWork s s.startReads := by
  obtain ⟨x, hx⟩ := s.startReads_port
  rw [hx]; constructor <;> rfl

/-! ### The station table -/

theorem State.setStn_only (s : State) (a : StationId) (x : Station) : OnlyTables s (s.setStn a x) := by constructor <;> rfl

theorem State.setSlot_only (s : State) (i : SlotId) (x : Slot) : OnlyTables s (s.setSlot i x) := by constructor <;> rfl

theorem State.notify_only (s : State) (a : StationId) (c : NoticeCause) : OnlyTables s (s.notify a c) := by
  constructor <;> rfl

theorem State.enterDown_only (s : State) (a : StationId) (c : NoticeCause) : OnlyTables s (s.enterDown a c) :=
  ((s.setStn_only a _).trans (State.purge_only _ a _ _)).trans (State.notify_only _ a c)

theorem State.enterJoining_only (s : State) (a : StationId) (c : Option NoticeCause) : OnlyTables s (s.enterJoining a c) := by
  unfold State.enterJoining
  dsimp only
  split <;> constructor <;> rfl

theorem State.enterUp_only (s : State) (a : StationId) : OnlyTables s (s.enterUp a) := by constructor <;> rfl

theorem State.enterFenced_only (s : State) (a : StationId) : OnlyTables s (s.enterFenced a) :=
  (((s.setStn_only a _).trans (State.fixEarly_only _ a _)).trans (State.purge_only _ a _ _)).trans (State.notify_only _ a _)

theorem State.enterVacant_only (s : State) (a : StationId) : OnlyTables s (s.enterVacant a) :=
  (((s.setStn_only a _).trans (State.fixEarly_only _ a _)).trans (State.purge_only _ a _ _)).trans (State.notify_only _ a _)

theorem State.failTest_only (s : State) (a : StationId) : OnlyTables s (s.failTest a) := by
  unfold State.failTest
  split
  · exact s.enterDown_only a _
  · exact .refl s

theorem State.outcomeUp_only (s : State) (a : StationId) (k : MKind) (m : Bool) (o : TurnOutcome) :
    OnlyTables s (s.outcomeUp a k m o) := by
  unfold State.outcomeUp
  dsimp only
  split
  · split
    · split
      · exact (s.setStn_only a _).trans (State.enterJoining_only _ a _)
      · exact s.setStn_only a _
    all_goals first | exact .refl s | exact s.setStn_only a _
  · exact s.setStn_only a _
  · exact (s.setStn_only a _).trans (State.failTest_only _ a)
  · exact (s.setStn_only a _).trans (State.failTest_only _ a)
  · exact (s.setStn_only a _).trans (State.enterJoining_only _ a _)
  · exact (s.setStn_only a _).trans (State.enterJoining_only _ a _)

theorem State.outcomeJoining_only (s : State) (a : StationId) (k : MKind) (m : Bool) (o : TurnOutcome) :
    OnlyTables s (s.outcomeJoining a k m o) := by
  unfold State.outcomeJoining
  dsimp only
  split
  · split
    · split <;> exact s.setStn_only a _
    · exact (s.setStn_only a _).trans (State.enterUp_only _ a)
    all_goals first | exact .refl s | exact s.setStn_only a _
  · exact s.setStn_only a _
  · split
    · exact (s.setStn_only a _).trans (State.enterDown_only _ a _)
    · exact s.setStn_only a _
  · split
    · exact (s.setStn_only a _).trans (State.enterDown_only _ a _)
    · exact s.setStn_only a _
  · exact s.setStn_only a _
  · exact s.setStn_only a _

theorem State.outcomeDown_only (s : State) (a : StationId) (k : MKind) (o : TurnOutcome) :
    OnlyTables s (s.outcomeDown a k o) := by
  unfold State.outcomeDown
  split
  · exact (s.setStn_only a _).trans (State.enterJoining_only _ a _)
  · exact .refl s

theorem State.stationOutcome_only (s : State) (a : StationId) (k : MKind) (m : Bool) (o : TurnOutcome) :
    OnlyTables s (s.stationOutcome a k m o) := by
  unfold State.stationOutcome
  split
  · exact s.outcomeUp_only a k m o
  · exact s.outcomeJoining_only a k m o
  · exact s.outcomeDown_only a k o
  · exact .refl s
  · exact .refl s

theorem State.stationSet_only (s : State) (a : StationId) (f : SetFields) : OnlyTables s (s.stationSet a f) := by
  unfold State.stationSet
  dsimp only
  split
  · exact ((s.setStn_only a _).trans (State.setStn_only _ a _)).trans (State.enterDown_only _ a _)
  · exact s.setStn_only a _
  · exact s.setStn_only a _
  · exact (s.setStn_only a _).trans (State.enterVacant_only _ a)

theorem State.fence_only (s : State) (a : StationId) : OnlyTables s (s.fence a) := by
  unfold State.fence
  split
  all_goals first | exact s.enterFenced_only a | exact .refl s

theorem State.unfence_only (s : State) (a : StationId) : OnlyTables s (s.unfence a).1 := by
  unfold State.unfence
  split
  · exact s.enterDown_only a _
  · exact .refl s

/-! ### Exchange results -/

theorem State.startWrite_only (s : State) (i : SlotId) (n : Nat) (d : List Byte) : OnlyTablesPort s (s.startWrite i n d) := by
  unfold State.startWrite; split <;> constructor <;> rfl

theorem State.fetchData_only (s : State) (i : SlotId) (p : List Byte) (last : Bool) :
    OnlyTablesPort s (s.fetchData i p last).1 := by
  have h := (s.setSlot_only i { s.slot i with blocks := (s.slot i).blocks + 1 }).toTablesPort.trans
    (State.startWrite_only _ i ((s.slot i).buf + (s.slot i).bytes) (p.take ((s.slot i).len - (s.slot i).bytes)))
  unfold State.fetchData
  dsimp only
  split
  · exact h
  · split
    · exact h
    · split <;> exact h

theorem State.applyAnswer_only (s : State) (i : SlotId) (ans : Answer) : OnlyTablesPort s (s.applyAnswer i ans).1 := by
  unfold State.applyAnswer
  dsimp only
  split
  · split
    · exact (s.setSlot_only i _).toTablesPort
    · exact .refl s
  · exact .refl s
  · exact s.fetchData_only i _ _
  · exact .refl s
  · exact (s.setSlot_only i _).toTablesPort.trans (State.startWrite_only _ i _ _)
  · exact (s.setSlot_only i _).toTablesPort
  · exact (s.setSlot_only i _).toTablesPort
  · exact .refl s
  · exact .refl s

theorem State.applyOutcome_only (s : State) (i : SlotId) (o : TurnOutcome) : OnlyTablesPort s (s.applyOutcome i o).1 := by
  unfold State.applyOutcome
  split
  · exact s.applyAnswer_only i _
  · exact (s.setSlot_only i _).toTablesPort
  all_goals exact .refl s

theorem State.settle_only (s : State) (i : SlotId) (r : Settle) : OnlyTables s (s.settle i r) := by
  unfold State.settle
  dsimp only
  split
  · exact (s.endExchange_only i _).trans (State.flushFollowers_only _ _)
  · exact (s.endExchange_only i _).trans (State.flushFollowers_only _ _)
  · split
    · exact (s.endExchange_only i _).trans (State.flushFollowers_only _ _)
    · split
      · exact (s.reorder_only _).trans (State.flushFollowers_only _ _)
      · exact s.flushFollowers_only _

theorem State.exchangeTurnEnd_only (s : State) (i : SlotId) (n : Nat) (o : TurnOutcome) :
    OnlyTablesPort s (s.exchangeTurnEnd i n o) :=
  ((s.setSlot_only i _).toTablesPort.trans (State.applyOutcome_only _ i o)).trans (State.settle_only _ i _).toTablesPort

theorem State.safeTurnEnd_only (s : State) (i : SlotId) (n : Nat) : OnlyTables s (s.safeTurnEnd i n) :=
  (s.setSlot_only i _).trans (State.settle_only _ i _)

theorem State.setResync_only (s : State) (a : StationId) : OnlyTables s (s.setResync a) := by constructor <;> rfl

theorem State.clearUnknown_only (s : State) (a : StationId) : OnlyTables s (s.clearUnknown a) := by
  unfold State.clearUnknown
  dsimp only
  split
  · exact .refl s
  · exact (OnlyTables.foldl _ (fun t i => t.setSlot_only i _) _ s).trans (State.setResync_only _ a)

theorem State.abandonExchange_only (s : State) (i : SlotId) : OnlyTables s (s.abandonExchange i) := by
  unfold State.abandonExchange
  dsimp only
  split
  · exact (s.endExchange_only i _).trans (State.flushFollowers_only _ _)
  · split
    · split
      · exact ((s.endExchange_only i _).trans (State.flushFollowers_only _ _)).trans (State.setResync_only _ _)
      · exact (s.endExchange_only i _).trans (State.flushFollowers_only _ _)
    · split
      · exact ((s.setSlot_only i _).trans (State.reorder_only _ _)).trans (State.flushFollowers_only _ _)
      · exact (s.setSlot_only i _).trans (State.flushFollowers_only _ _)

/-! ### The fetcher -/

theorem State.takeCancel_only (s : State) (r : RingId) (e : Entry) (n : Word) (j : SlotId) (x : Slot) :
    OnlyTables s (s.takeCancel r e n j x) := by
  unfold State.takeCancel
  split
  · constructor <;> rfl
  · dsimp only
    split
    · split
      · constructor <;> rfl
      · constructor <;> rfl
    · rename_i i _ _
      have h1 := s.endExchange_only i .cancelled
      have h2 : ∀ (u : Bool) (q : Option StationId), OnlyTables s (match u, q with
          | true, some a => (s.endExchange i .cancelled).setResync a
          | _, _ => s.endExchange i .cancelled) := by
        intro u q
        split
        · exact h1.trans (State.setResync_only _ _)
        · exact h1
      have hs : ∀ t : State, OnlyTables t (t.slotless r e n .ok) := fun t => by constructor <;> rfl
      split
      · exact ((h2 _ _).trans (State.testBarrier_only _ _)).trans (hs _)
      · exact (h2 _ _).trans (hs _)

theorem State.place_only (s : State) (r : RingId) (k : ExKind) (e : Entry) (n : Word) (j : SlotId) :
    OnlyTables s (s.place r k e n j) := by
  have hf : ∀ (t : State) (x : Slot), OnlyTables t (t.fill j x) := fun t x => by constructor <;> rfl
  have ha : ∀ t : State, OnlyTables t (t.addFollower j) := fun t => by constructor <;> rfl
  have hs : ∀ (t : State) (st : Status), OnlyTables t (t.slotless r e n st) := fun t st => by constructor <;> rfl
  unfold State.place
  dsimp only
  split
  case h_6 => constructor <;> rfl
  case h_7 =>
    have hb : OnlyTables s ((s.fill j (newSlot .barrier e r n ((s.ring r).prio == .urgent) s.store.nextOrder)).setBarrier r
        (s.barrier r ++ [j])) := by constructor <;> rfl
    split
    · exact hb.trans (State.testBarrier_only _ r)
    · exact hb
  case h_8 => exact s.takeCancel_only r e n j _
  case h_9 =>
    split
    · split
      · exact ((hf s _).trans (ha _)).trans (State.fence_only _ _)
      · exact (s.fence_only _).trans (hs _ _)
    · exact .refl s
  case h_10 =>
    split
    · split
      · exact ((hf s _).trans (ha _)).trans (State.stationSet_only _ _ _)
      · exact (s.stationSet_only _ _).trans (hs _ _)
    · exact .refl s
  case h_11 =>
    split
    · exact (s.unfence_only _).trans (hs _ _)
    · exact .refl s
  all_goals
    split
    · constructor <;> rfl
    · exact .refl s

theorem State.validate_only (s : State) (r : RingId) : OnlyWork s (s.validate r) := by
  unfold State.validate
  dsimp only
  split
  · exact .refl s
  · split
    · constructor <;> rfl
    · split
      · exact OnlyWork.trans (t := s.advance r) (by constructor <;> rfl) (State.place_only _ _ _ _ _ _).toWork
      · constructor <;> rfl
    · exact .refl s

theorem State.validateRings_only (n : Nat) (s : State) (l : List RingId) : OnlyWork s (s.validateRings n l) := by
  induction n generalizing s l with
  | zero => exact .refl s
  | succ n ih =>
    unfold State.validateRings
    split
    · exact .refl s
    · exact ((s.validate_only _).trans (State.startReads_only _)).trans (ih _ _)

theorem aftermath_only (s t : State) (b : Bool) : OnlyWork t (aftermath s t b) := by
  unfold aftermath
  split
  · exact (State.startReads_only _).trans (State.validateRings_only _ _ _)
  · exact .refl t

/-- With no ring to validate, no validation is made. -/
theorem State.validateRings_nil (n : Nat) (s : State) : s.validateRings n [] = s := by
  cases n with
  | zero => rfl
  | succ n =>
    have h : s.ringOrder.find? (fun r => r ∈ ([] : List RingId)) = none := by simp
    unfold State.validateRings
    rw [h]

/-- Where no ring is HELD, only the block reads that fall due follow an event. -/
theorem aftermath_noneHeld (s t : State) (b : Bool) (h : ∀ r, (t.ring r).held = false) : aftermath s t b = t.startReads := by
  have hr : reachedRings s t b = [] := by
    simp [reachedRings, reaches, h]
  unfold aftermath
  rw [hr, State.validateRings_nil]
  split
  · rfl
  · rename_i hn; simp [State.startReads, hn]

/-- Outside RUNNING nothing follows an event. -/
theorem aftermath_notRunning (s t : State) (b : Bool) (h : t.running = false) : aftermath s t b = t := by
  simp [aftermath, h]

/-! ### The resolver, the link engine and the arbiter -/

theorem State.returnReservation_only (s : State) : OnlyResolver s s.returnReservation := by
  unfold State.returnReservation; split <;> constructor <;> rfl

theorem State.dropLatch_only (s : State) : OnlyResolver s s.dropLatch :=
  s.returnReservation_only.trans (by constructor <;> rfl)

theorem State.stepOver_only (s : State) : OnlyResolver s s.stepOver := by constructor <;> rfl

theorem State.setStack_only (s : State) (l : List SearchRange) : OnlyResolver s (s.setStack l) := by constructor <;> rfl

theorem State.attnFrom_only (s : State) (r : SearchRange) (a : StationId) : OnlyResolver s (s.attnFrom r a) := by
  unfold State.attnFrom
  dsimp only
  split
  · constructor <;> rfl
  · exact s.returnReservation_only.trans (by constructor <;> rfl)

theorem State.callResult_only (s : State) (r : SearchRange) (c : CallResult) : OnlyResolver s (s.callResult r c) := by
  unfold State.callResult
  split
  · exact s.returnReservation_only.trans (State.stepOver_only _)
  · exact (s.returnReservation_only.trans (State.setStack_only _ _)).trans (State.stepOver_only _)
  · exact (s.attnFrom_only r _).trans (State.stepOver_only _)

theorem State.confirmEnd_only (s : State) (a : StationId) (o : TurnOutcome) : OnlyResolver s (s.confirmEnd a o) := by
  unfold State.confirmEnd
  dsimp only
  split
  · constructor <;> rfl
  · exact s.returnReservation_only.trans (by constructor <;> rfl)

theorem State.pollEnd_only (s : State) (a : StationId) (o : TurnOutcome) : OnlyResolver s (s.pollEnd a o) := by
  unfold State.pollEnd; split <;> constructor <;> rfl

theorem State.clearResolver_only (s : State) : OnlyResolver s s.clearResolver :=
  s.dropLatch_only.trans (by constructor <;> rfl)

theorem State.linkIdle_only (s : State) : OnlyLine s s.linkIdle := by constructor <;> rfl

theorem State.lineUsed_only (s : State) : OnlyLine s s.lineUsed := by constructor <;> rfl

theorem State.endStationTurn_only (s : State) (t : Turn) (a : StationId) (o : TurnOutcome) :
    OnlyLine s (s.endStationTurn t a o) := by
  unfold State.endStationTurn
  dsimp only
  refine OnlyLine.trans ?_ (State.clearUnknown_only _ a).toLine
  have h1 : OnlyLine s (match t.purpose with
      | .exchange i _ => s.linkIdle.exchangeTurnEnd i t.tries o
      | _ => s.linkIdle) := by
    split
    · exact s.linkIdle_only.trans (State.exchangeTurnEnd_only _ _ _ _).toLine
    · exact s.linkIdle_only
  have h2 := h1.trans (State.stationOutcome_only _ a t.kind t.image.m o).toLine
  split
  · exact h2.trans (State.pollEnd_only _ a o).toLine
  · exact h2.trans (State.confirmEnd_only _ a o).toLine
  · exact h2

theorem State.tryFailed_only (s : State) (t : Turn) (c : CallResult) : OnlyLine s (s.tryFailed t c) := by
  unfold State.tryFailed
  split
  · exact s.linkIdle_only.trans (State.callResult_only _ _ _).toLine
  · split
    · constructor <;> rfl
    · split
      · exact s.endStationTurn_only t _ _
      · exact s.linkIdle_only

theorem State.frameJudged_only (s : State) (t : Turn) (f : RxFrame) : OnlyLine s (s.frameJudged t f) := by
  unfold State.frameJudged
  split
  · exact s.linkIdle_only.trans (State.callResult_only _ _ _).toLine
  · split
    · split
      · exact s.endStationTurn_only t _ _
      · exact s.tryFailed_only t _
    · exact .refl s

theorem State.nextTry_only (s : State) (t : Turn) : OnlyLine s (s.nextTry t) := by
  unfold State.nextTry
  dsimp only
  split <;> constructor <;> rfl

theorem State.abandonTurn_only (s : State) : OnlyLine s s.abandonTurn := by
  have h0 : OnlyLine s s.linkIdle.lineUsed := s.linkIdle_only.trans (State.lineUsed_only _)
  unfold State.abandonTurn
  split
  · exact .refl s
  · dsimp only
    split
    · exact h0.trans (State.abandonExchange_only _ _).toLine
    · exact h0.trans (State.abandonExchange_only _ _).toLine
    · exact h0.trans (by constructor <;> rfl)
    · exact h0
    · exact h0
    · exact h0.trans ((State.returnReservation_only _).trans (State.stepOver_only _)).toLine
    · exact (h0.trans ((State.dropLatch_only _).trans (State.stepOver_only _)).toLine).trans
        (State.setResync_only _ _).toLine

theorem State.cycleEnd_only (s : State) : OnlyChoice s s.cycleEnd := by
  unfold State.cycleEnd
  dsimp only
  split <;> constructor <;> rfl

theorem State.advanceCursor_only (s : State) : OnlyChoice s s.advanceCursor := by
  unfold State.advanceCursor
  split
  · constructor <;> rfl
  · exact OnlyChoice.trans (t := { s with arb := { s.arb with cursor := 0 } }) (by constructor <;> rfl)
      (State.cycleEnd_only _)

theorem State.walkCursor_only (n : Nat) (s : State) : OnlyChoice s (s.walkCursor n) := by
  induction n generalizing s with
  | zero => constructor <;> rfl
  | succ n ih =>
    unfold State.walkCursor
    split
    · exact .refl s
    · exact s.advanceCursor_only.trans (ih _)

theorem State.settleCursor_only (s : State) : OnlyChoice s s.settleCursor := by
  unfold State.settleCursor
  split
  · exact .refl s
  · exact s.walkCursor_only _

theorem State.beginStationTurn_only (s : State) (p : Purpose) (k : MKind) (a : StationId) (b : Bool) (d : List Byte) :
    OnlyChoice s (s.beginStationTurn p k a b d) := by constructor <;> rfl

theorem State.beginExchangeTurn_only (s : State) (a : StationId) (i : SlotId) : OnlyChoice s (s.beginExchangeTurn a i) := by
  unfold State.beginExchangeTurn
  dsimp only
  split <;> constructor <;> rfl

theorem State.offerCall_only (s : State) : OnlyResolver s s.offerCall.1 := by
  unfold State.offerCall
  split
  · exact .refl s
  · split
    · exact .refl s
    · constructor <;> rfl

theorem State.offerAttention_only (s : State) : OnlyResolver s s.offerAttention.1 := by
  unfold State.offerAttention
  split
  · split
    · split <;> exact .refl s
    · exact .refl s
    all_goals exact s.dropLatch_only.trans (State.offerCall_only _)
  · exact s.offerCall_only

theorem State.probeOrPoll_only (s : State) : OnlyChoice s s.probeOrPoll := by
  unfold State.probeOrPoll
  split
  · constructor <;> rfl
  · split
    · refine OnlyChoice.trans (t := { s with arb := { s.arb with recoveryDue := false } }) (by constructor <;> rfl) ?_
      unfold State.beginPoll
      exact (OnlyChoice.trans (t := State.setWorkCount (State.reserveUnsol _) 0) (by constructor <;> rfl)
        (State.advanceCursor_only _)).trans (State.beginStationTurn_only _ _ _ _ _ _)
    · exact .refl s

theorem State.workOrPoll_only (s : State) : OnlyChoice s s.workOrPoll := by
  unfold State.workOrPoll
  dsimp only
  split
  · exact s.probeOrPoll_only
  · split
    · split
      · unfold State.beginWork
        exact OnlyChoice.trans (by constructor <;> rfl) (State.beginExchangeTurn_only _ _ _)
      · exact .refl s
    · split
      · exact s.probeOrPoll_only
      · exact .refl s

theorem State.attentionOrWork_only (s : State) : OnlyChoice s s.attentionOrWork := by
  have h := s.offerAttention_only.toChoice
  unfold State.attentionOrWork
  split
  · rename_i heq; rw [heq] at h; exact h.trans (by constructor <;> rfl)
  · rename_i heq; rw [heq] at h; exact h.trans (by constructor <;> rfl)
  · rename_i heq; rw [heq] at h; exact h.trans (State.workOrPoll_only _)

/-- A choice of the arbiter changes the link engine, slots, the arbiter, the resolver and credits, and nothing else. -/
theorem State.choose_only (s : State) : OnlyChoice s s.choose := by
  unfold State.choose
  split
  · constructor <;> rfl
  · split
    · constructor <;> rfl
    · split
      · exact OnlyChoice.trans (by constructor <;> rfl) (State.beginExchangeTurn_only _ _ _)
      · exact s.attentionOrWork_only

/-! ### Line time and HALTED -/

/-- Line time moves the link engine's, the stations' and the arbiter's timers, and nothing else. -/
theorem State.elapse_only (s : State) (n : Nat) : OnlyEvent s (s.elapse n) := by
  unfold State.elapse; split <;> constructor <;> rfl

theorem State.elapse_store (s : State) (n : Nat) : (s.elapse n).store = s.store := by unfold State.elapse; split <;> rfl
theorem State.elapse_post (s : State) (n : Nat) : (s.elapse n).post = s.post := by unfold State.elapse; split <;> rfl
theorem State.elapse_res (s : State) (n : Nat) : (s.elapse n).res = s.res := by unfold State.elapse; split <;> rfl
theorem State.elapse_fetch (s : State) (n : Nat) : (s.elapse n).fetch = s.fetch := by unfold State.elapse; split <;> rfl
theorem State.elapse_port (s : State) (n : Nat) : (s.elapse n).port = s.port := by unfold State.elapse; split <;> rfl
@[simp] theorem Link.elapse_phase (x : Link) (n : Nat) : (x.elapse n).phase = x.phase := rfl
@[simp] theorem Link.elapse_turn (x : Link) (n : Nat) : (x.elapse n).turn = x.turn := rfl
@[simp] theorem Link.elapse_rx (x : Link) (n : Nat) : (x.elapse n).rx = x.rx := rfl
@[simp] theorem Link.elapse_driverEnable (x : Link) (n : Nat) : (x.elapse n).driverEnable = x.driverEnable := rfl

theorem State.elapse_turn (s : State) (n : Nat) : (s.elapse n).link.turn = s.link.turn := by unfold State.elapse; split <;> rfl
theorem State.elapse_phase (s : State) (n : Nat) : (s.elapse n).link.phase = s.link.phase := by
  unfold State.elapse; split <;> rfl
theorem State.elapse_rx (s : State) (n : Nat) : (s.elapse n).link.rx = s.link.rx := by unfold State.elapse; split <;> rfl
theorem State.elapse_driver (s : State) (n : Nat) : (s.elapse n).link.driverEnable = s.link.driverEnable := by
  unfold State.elapse; split <;> rfl

/-- In RUNNING a station changes by line time in its hold-off timer alone. -/
theorem State.elapse_stn (s : State) (n : Nat) (a : StationId) (h : s.ctrl.state = .running) :
    (s.elapse n).stn a = { s.stn a with holdOff := timerAfter n (s.stn a).holdOff } := by
  unfold State.elapse State.stn
  simp [h]

@[simp] theorem State.halt_state (s : State) (c : FaultCode) (d : Nat) : (s.halt c d).ctrl.state = .halted := rfl
@[simp] theorem State.halt_store (s : State) (c : FaultCode) (d : Nat) : (s.halt c d).store = s.store := rfl
@[simp] theorem State.halt_stations (s : State) (c : FaultCode) (d : Nat) : (s.halt c d).stations = s.stations := rfl
@[simp] theorem State.halt_post (s : State) (c : FaultCode) (d : Nat) : (s.halt c d).post = s.post := rfl
@[simp] theorem State.halt_fetch (s : State) (c : FaultCode) (d : Nat) : (s.halt c d).fetch = s.fetch := rfl
@[simp] theorem State.halt_res (s : State) (c : FaultCode) (d : Nat) : (s.halt c d).res = s.res := rfl
@[simp] theorem State.halt_arb (s : State) (c : FaultCode) (d : Nat) : (s.halt c d).arb = s.arb := rfl
@[simp] theorem State.halt_susp (s : State) (c : FaultCode) (d : Nat) : (s.halt c d).susp = s.susp := rfl
@[simp] theorem State.halt_port (s : State) (c : FaultCode) (d : Nat) : (s.halt c d).port = s.port := rfl
@[simp] theorem State.halt_driver (s : State) (c : FaultCode) (d : Nat) : (s.halt c d).link.driverEnable = false := rfl


end Sys2Proof.Machine
end

