-- ==== Sys2Proof/Laws/Line.lean ====
section
/-! SUPPORT. What the listen period's shared operations do, said once: the passing of its limit and a character heard. -/

namespace Sys2Proof.Machine

@[simp] theorem Link.elapse_phaseLeft (x : Link) (n : Nat) : (x.elapse n).phaseLeft = x.phaseLeft - n := rfl
@[simp] theorem Link.elapse_guardLeft (x : Link) (n : Nat) : (x.elapse n).guardLeft = x.guardLeft - n := rfl

/-- A period that is late stays late while time passes. -/
theorem Link.elapse_late_of_late {x : Link} (n : Nat) (h : x.late = true) : (x.elapse n).late = true := by
  simp [Link.elapse, h]

/-- A listen period becomes late exactly when more time passes than its limit leaves. -/
theorem Link.elapse_late_listening {x : Link} (n : Nat) (hp : x.phase = .listening) (hl : x.late = false) :
    (x.elapse n).late = true ↔ x.phaseLeft < n := by
  simp [Link.elapse, hp, hl]

/-- Outside a listen period nothing becomes late. -/
theorem Link.elapse_late_other {x : Link} (n : Nat) (hp : x.phase ≠ .listening) : (x.elapse n).late = x.late := by
  simp [Link.elapse, hp]

/-- A late period takes no character (R11, R12). -/
@[simp] theorem State.hearing_late {s : State} (h : s.link.late = true) : s.hearing = none := by simp [State.hearing, h]

/-- A period that is not late takes characters of the turn that listens. -/
@[simp] theorem State.hearing_inTime {s : State} (h : s.link.late = false) : s.hearing = s.turnIn .listening := by
  simp [State.hearing, h]

@[simp] theorem State.hear_rx (s : State) (c : Byte) : (s.hear c).link.rx = s.link.rx ++ [c] := rfl
@[simp] theorem State.hear_late (s : State) (c : Byte) : (s.hear c).link.late = false := rfl
@[simp] theorem State.hear_phaseLeft (s : State) (c : Byte) : (s.hear c).link.phaseLeft = Config.gapLimit := rfl
@[simp] theorem State.hear_phase (s : State) (c : Byte) : (s.hear c).link.phase = s.link.phase := rfl
@[simp] theorem State.hear_turn (s : State) (c : Byte) : (s.hear c).link.turn = s.link.turn := rfl
@[simp] theorem State.hear_guardLeft (s : State) (c : Byte) : (s.hear c).link.guardLeft = s.link.guardLeft := rfl
@[simp] theorem State.hear_driverEnable (s : State) (c : Byte) : (s.hear c).link.driverEnable = s.link.driverEnable := rfl
@[simp] theorem State.hear_store (s : State) (c : Byte) : (s.hear c).store = s.store := rfl
@[simp] theorem State.hear_stations (s : State) (c : Byte) : (s.hear c).stations = s.stations := rfl
@[simp] theorem State.hear_ctrl (s : State) (c : Byte) : (s.hear c).ctrl = s.ctrl := rfl

end Sys2Proof.Machine
end

