-- ==== Sys2Proof/Laws/PerInstr.lean ====
section
/-! SUPPORT. Families of laws made command by command. -/

namespace Sys2Proof.Laws.NoWord

/-- No word of the table spells the command: the table gives its rows no bits. -/
def Statement (i : Instr) : Prop := ∀ nbits w : Nat, decodeTableWord nbits w ≠ some i

theorem powerOn : Statement .powerOn := fun _ _ => nofun
theorem start : Statement .start := fun _ _ => nofun
theorem suspendGraceful : Statement .suspendGraceful := fun _ _ => nofun
theorem suspendImmediate : Statement .suspendImmediate := fun _ _ => nofun
theorem resume : Statement .resume := fun _ _ => nofun
theorem lineReset : Statement .lineReset := fun _ _ => nofun
theorem fullReset : Statement .fullReset := fun _ _ => nofun
theorem unknownCommand (code : Word) : Statement (.unknownCommand code) := fun _ _ => nofun
theorem cqHeadWrite (v : Word) : Statement (.cqHeadWrite v) := fun _ _ => nofun
theorem sqTailWrite (r : RingId) (v : Word) : Statement (.sqTailWrite r v) := fun _ _ => nofun
theorem irqCauseWrite (v : Word) : Statement (.irqCauseWrite v) := fun _ _ => nofun
theorem irqEnableWrite (v : Word) : Statement (.irqEnableWrite v) := fun _ _ => nofun
theorem configAddressWrite (half : Half) (v : Word) : Statement (.configAddressWrite half v) := fun _ _ => nofun
theorem ignoredRegisterWrite (reg : ReadOnlyReg) (v : Word) : Statement (.ignoredRegisterWrite reg v) := fun _ _ => nofun
theorem configReadDone (data : List Byte) : Statement (.configReadDone data) := fun _ _ => nofun
theorem configReadFault : Statement .configReadFault := fun _ _ => nofun
theorem resetComplete : Statement .resetComplete := fun _ _ => nofun
theorem arbiterChoice : Statement .arbiterChoice := fun _ _ => nofun
theorem emptyCycleTimerExpiry : Statement .emptyCycleTimerExpiry := fun _ _ => nofun
theorem holdOffExpiry (a : StationId) : Statement (.holdOffExpiry a) := fun _ _ => nofun
theorem masterFrameEnd : Statement .masterFrameEnd := fun _ _ => nofun
theorem startLimitExpiry : Statement .startLimitExpiry := fun _ _ => nofun
theorem gapLimitExpiry : Statement .gapLimitExpiry := fun _ _ => nofun
theorem frameReceived (c : Byte) : Statement (.frameReceived c) := fun _ _ => nofun
theorem garbledReception (why : RxFault) : Statement (.garbledReception why) := fun _ _ => nofun
theorem lineActivity : Statement .lineActivity := fun _ _ => nofun
theorem retryGuardElapsed : Statement .retryGuardElapsed := fun _ _ => nofun
theorem blockReadDone (i : SlotId) (data : List Byte) : Statement (.blockReadDone i data) := fun _ _ => nofun
theorem blockReadFault (i : SlotId) : Statement (.blockReadFault i) := fun _ _ => nofun
theorem blockWriteDone (i : SlotId) : Statement (.blockWriteDone i) := fun _ _ => nofun
theorem blockWriteFault (i : SlotId) : Statement (.blockWriteFault i) := fun _ _ => nofun
theorem entryReadStart : Statement .entryReadStart := fun _ _ => nofun
theorem entryReadDone (data : List Byte) : Statement (.entryReadDone data) := fun _ _ => nofun
theorem entryReadFault : Statement .entryReadFault := fun _ _ => nofun
theorem recordWriteStart : Statement .recordWriteStart := fun _ _ => nofun
theorem recordWriteDone : Statement .recordWriteDone := fun _ _ => nofun
theorem recordWriteFault : Statement .recordWriteFault := fun _ _ => nofun
theorem suspendQuiesced : Statement .suspendQuiesced := fun _ _ => nofun
theorem imageWriteStart : Statement .imageWriteStart := fun _ _ => nofun
theorem imageWriteDone : Statement .imageWriteDone := fun _ _ => nofun
theorem imageWriteFault : Statement .imageWriteFault := fun _ _ => nofun
theorem imageHeaderWriteDone : Statement .imageHeaderWriteDone := fun _ _ => nofun
theorem headerReadDone (data : List Byte) : Statement (.headerReadDone data) := fun _ _ => nofun
theorem stationRecordsReadDone (data : List Byte) : Statement (.stationRecordsReadDone data) := fun _ _ => nofun
theorem contextsReadDone (data : List Byte) : Statement (.contextsReadDone data) := fun _ _ => nofun
theorem imageReadFault : Statement .imageReadFault := fun _ _ => nofun
theorem spentWriteDone : Statement .spentWriteDone := fun _ _ => nofun
theorem spentWriteFault : Statement .spentWriteFault := fun _ _ => nofun
theorem stationCharacterReceived (c : Byte) : Statement (.stationCharacterReceived c) := fun _ _ => nofun

end Sys2Proof.Laws.NoWord
end

