-- ==== Sys2Proof/Laws/Store.lean ====
section
/-! SUPPORT. What the exchange store's shared operations make of slots, lists, the post list and depths. -/

namespace Sys2Proof.Machine

/-! ### Fields that only some kinds have (Tables 4-1 and 10-5) -/

theorem ExKind.ofBuffer_buffer {k : ExKind} (h : k.hasBuffer = true) (n : Nat) : k.ofBuffer n = n := if_pos h

theorem ExKind.ofBuffer_none {k : ExKind} (h : k.hasBuffer = false) (n : Nat) : k.ofBuffer n = 0 := by
  simp [ExKind.ofBuffer, h]

@[simp] theorem ExKind.ofSafe_safe (n : Nat) : ExKind.safe.ofSafe n = n := rfl

theorem ExKind.ofSafe_other {k : ExKind} (h : k ≠ .safe) (n : Nat) : k.ofSafe n = 0 := by
  simp [ExKind.ofSafe, h]

/-- A rebuilt slot holds no more bytes moved than its length where its context did not (Table 10-7). -/
theorem Context.slot_bytes_le (c : Context) (k : ExKind) (r : RingId) (n : Nat) (h : c.bytes ≤ c.len) :
    (c.slot k r n).bytes ≤ (c.slot k r n).len := by
  simp only [Context.slot, ExKind.ofBuffer]; split <;> omega

/-! ### Two states with the same tables -/

theorem State.stn_congr {s t : State} (h : t.stations = s.stations) (a : StationId) : t.stn a = s.stn a := by
  unfold State.stn; rw [h]

theorem State.slot_congr {s t : State} (h : t.store = s.store) (i : SlotId) : t.slot i = s.slot i := by
  unfold State.slot; rw [h]

theorem State.list_congr {s t : State} (h : t.store = s.store) (a : StationId) : t.list a = s.list a := by
  unfold State.list; rw [h]

theorem State.barrier_congr {s t : State} (h : t.store = s.store) (r : RingId) : t.barrier r = s.barrier r := by
  unfold State.barrier; rw [h]

theorem State.ring_congr {s t : State} (h : t.fetch = s.fetch) (r : RingId) : t.ring r = s.ring r := by
  unfold State.ring; rw [h]

theorem State.xfer_congr {s t : State} (h : t.port = s.port) (i : SlotId) : t.xfer i = s.xfer i := by
  unfold State.xfer; rw [h]

theorem State.turnSlot_congr {s t : State} (h : t.link = s.link) : t.turnSlot = s.turnSlot := by
  unfold State.turnSlot; rw [h]

/-! ### Discarded blocks -/

theorem State.discardBlocks_only (s : State) : OnlyTables s s.discardBlocks := by
  constructor <;> simp only [State.discardBlocks]

theorem State.discardBlocks_stations (s : State) : s.discardBlocks.stations = s.stations := by
  simp only [State.discardBlocks]

theorem State.discardBlocks_slot (s : State) (i : SlotId) :
    s.discardBlocks.slot i = if s.turnSlot = some i then s.slot i else { s.slot i with held := none } := by
  simp [State.discardBlocks, State.slot]

theorem State.discardBlocks_list (s : State) (a : StationId) : s.discardBlocks.list a = s.list a := by
  simp only [State.discardBlocks, State.list]

theorem State.discardBlocks_barrier (s : State) (r : RingId) : s.discardBlocks.barrier r = s.barrier r := by
  simp only [State.discardBlocks, State.barrier]

theorem State.discardBlocks_lists (s : State) : s.discardBlocks.store.lists = s.store.lists := by
  simp only [State.discardBlocks]

theorem State.discardBlocks_safeList (s : State) : s.discardBlocks.store.safeList = s.store.safeList := by
  simp only [State.discardBlocks]

theorem State.discardBlocks_followers (s : State) : s.discardBlocks.store.followers = s.store.followers := by
  simp only [State.discardBlocks]

theorem State.discardBlocks_postList (s : State) : s.discardBlocks.store.postList = s.store.postList := by
  simp only [State.discardBlocks]

/-! ### Leaving a list -/

theorem State.leave_safe (s : State) {i : SlotId} (h : (s.slot i).kind = some .safe) :
    s.leave i = { s with store := { s.store with safeList := s.store.safeList.erase i } } := by
  simp only [State.leave, h]

theorem State.leave_barrier (s : State) {i : SlotId} (h : (s.slot i).kind = some .barrier) :
    s.leave i = s.setBarrier (s.slot i).ring ((s.barrier (s.slot i).ring).erase i) := by
  simp only [State.leave, h]

/-- An exchange of a station kind leaves the list of its station. -/
theorem State.leave_station (s : State) {i : SlotId} {k : ExKind} {a : StationId} (h : (s.slot i).kind = some k)
    (hk : k.usesLine = true) (ha : (s.slot i).station = some a) : s.leave i = s.leaveStation a i := by
  cases k <;> simp_all [State.leave, ExKind.usesLine]

theorem State.leaveStation_slot (s : State) (a : StationId) (i j : SlotId) : (s.leaveStation a i).slot j = s.slot j := by
  unfold State.leaveStation; split <;> rfl

theorem State.leaveStation_barrier (s : State) (a : StationId) (i : SlotId) (r : RingId) :
    (s.leaveStation a i).barrier r = s.barrier r := by
  unfold State.leaveStation; split <;> rfl

theorem State.leaveStation_postList (s : State) (a : StationId) (i : SlotId) :
    (s.leaveStation a i).store.postList = s.store.postList ∧ (s.leaveStation a i).store.safeList = s.store.safeList ∧
    (s.leaveStation a i).store.followers = s.store.followers := by
  unfold State.leaveStation; split <;> exact ⟨rfl, rfl, rfl⟩

theorem State.leaveStation_list (s : State) (a : StationId) (i : SlotId) :
    (s.leaveStation a i).list a = (s.list a).erase i := by
  unfold State.leaveStation; split
  · simp
  · rw [List.erase_of_not_mem ‹_›]

theorem State.leaveStation_list_other (s : State) {a b : StationId} (i : SlotId) (h : b ≠ a) :
    (s.leaveStation a i).list b = s.list b := by
  unfold State.leaveStation; split
  · simp [State.list_setList_other _ _ h]
  · rfl

/-- The depth after a departure (R42). -/
theorem State.leaveStation_stn (s : State) (a : StationId) (i : SlotId) :
    (s.leaveStation a i).stn a = { s.stn a with depth := (s.stn a).depth -
      (if i ∈ s.list a ∧ (s.stn a).targetDepth < (s.stn a).depth then 1 else 0) } := by
  unfold State.leaveStation
  split
  · rw [State.stn_setStn_same]; unfold Station.reduceDepth; split <;> simp_all [Nat.not_lt.2]
  · simp_all

theorem State.leaveStation_stn_other (s : State) {a b : StationId} (i : SlotId) (h : b ≠ a) :
    (s.leaveStation a i).stn b = s.stn b := by
  unfold State.leaveStation; split
  · rw [State.stn_setStn_other _ _ h]; rfl
  · rfl

/-! ### Ending -/

theorem State.finish_list (s : State) (i : SlotId) (st : Status) (a : StationId) : (s.finish i st).list a = s.list a := rfl
theorem State.finish_barrier (s : State) (i : SlotId) (st : Status) (r : RingId) : (s.finish i st).barrier r = s.barrier r := rfl
theorem State.finish_stn (s : State) (i : SlotId) (st : Status) (a : StationId) : (s.finish i st).stn a = s.stn a := rfl

theorem State.leave_slot (s : State) (i j : SlotId) : (s.leave i).slot j = s.slot j := by
  simp only [State.leave]
  split
  · rfl
  · rfl
  · split
    · exact s.leaveStation_slot _ _ _
    · rfl

theorem State.leave_postList (s : State) (i : SlotId) :
    (s.leave i).store.postList = s.store.postList ∧ (s.leave i).store.followers = s.store.followers := by
  simp only [State.leave]
  split
  · exact ⟨rfl, rfl⟩
  · exact ⟨rfl, rfl⟩
  · split
    · exact ⟨(s.leaveStation_postList _ _).1, (s.leaveStation_postList _ _).2.2⟩
    · exact ⟨rfl, rfl⟩

theorem State.endExchange_slot (s : State) (i : SlotId) (st : Status) :
    (s.endExchange i st).slot i = { s.slot i with life := .done, result := some st, held := none } := by
  unfold State.endExchange; rw [State.finish_slot_same, State.leave_slot]

theorem State.endExchange_slot_other (s : State) {i j : SlotId} (st : Status) (h : j ≠ i) :
    (s.endExchange i st).slot j = s.slot j := by
  unfold State.endExchange; rw [State.finish_slot_other _ _ h, State.leave_slot]

theorem State.endExchange_postList (s : State) (i : SlotId) (st : Status) :
    (s.endExchange i st).store.postList = s.store.postList ++ [.slot i] := by
  unfold State.endExchange; rw [State.finish_postList, (s.leave_postList i).1]

theorem State.endExchange_followers (s : State) (i : SlotId) (st : Status) :
    (s.endExchange i st).store.followers = s.store.followers := by
  exact (s.leave_postList i).2

/-- What ending an exchange of a station kind makes of lists and station table. -/
theorem State.endExchange_station (s : State) {i : SlotId} (st : Status) {k : ExKind} {a : StationId}
    (h : (s.slot i).kind = some k) (hk : k.usesLine = true) (ha : (s.slot i).station = some a) :
    (s.endExchange i st).list a = (s.list a).erase i ∧ (∀ b, b ≠ a → (s.endExchange i st).list b = s.list b) ∧
    (∀ r, (s.endExchange i st).barrier r = s.barrier r) ∧ (s.endExchange i st).store.safeList = s.store.safeList ∧
    (s.endExchange i st).stn a = { s.stn a with depth := (s.stn a).depth -
      (if i ∈ s.list a ∧ (s.stn a).targetDepth < (s.stn a).depth then 1 else 0) } ∧
    (∀ b, b ≠ a → (s.endExchange i st).stn b = s.stn b) := by
  unfold State.endExchange
  rw [s.leave_station h hk ha]
  exact ⟨s.leaveStation_list a i, fun b hb => s.leaveStation_list_other i hb, fun r => s.leaveStation_barrier a i r,
    (s.leaveStation_postList a i).2.1, s.leaveStation_stn a i, fun b hb => s.leaveStation_stn_other i hb⟩

/-! ### Followers -/

/-- The step by which `flushFollowers` ends one follower. -/
theorem State.flushFollowers_eq (s : State) (c : Status) : s.flushFollowers c =
    s.store.followers.foldl
      (fun t i => t.finish i (if (t.slot i).kind = some .cancel then c else (t.slot i).result.getD .ok))
      { s with store := { s.store with followers := [] } } := rfl

theorem State.foldl_finish (f : State → SlotId → Status) (l : List SlotId) (s : State) :
    (∀ i, i ∉ l → (l.foldl (fun t i => t.finish i (f t i)) s).slot i = s.slot i) ∧
    (l.foldl (fun t i => t.finish i (f t i)) s).store.postList = s.store.postList ++ l.map .slot ∧
    (l.foldl (fun t i => t.finish i (f t i)) s).store.followers = s.store.followers ∧
    (l.foldl (fun t i => t.finish i (f t i)) s).store.lists = s.store.lists ∧
    (l.foldl (fun t i => t.finish i (f t i)) s).store.barriers = s.store.barriers ∧
    (l.foldl (fun t i => t.finish i (f t i)) s).store.safeList = s.store.safeList ∧
    (l.foldl (fun t i => t.finish i (f t i)) s).stations = s.stations := by
  induction l generalizing s with
  | nil => exact ⟨fun _ _ => rfl, by simp, rfl, rfl, rfl, rfl, rfl⟩
  | cons a l ih =>
    rw [List.foldl_cons]
    obtain ⟨h1, h2, h3, h4, h5, h6, h7⟩ := ih (s.finish a (f s a))
    refine ⟨fun i hi => ?_, ?_, h3, h4, h5, h6, h7⟩
    · simp only [List.mem_cons, not_or] at hi
      rw [h1 i hi.2, State.finish_slot_other _ _ hi.1]
    · rw [h2]; simp

/-- The followers pass behind the post list, and no other slot, list or station changes (R73). -/
theorem State.flushFollowers_spec (s : State) (c : Status) :
    (∀ i, i ∉ s.store.followers → (s.flushFollowers c).slot i = s.slot i) ∧
    (s.flushFollowers c).store.postList = s.store.postList ++ s.store.followers.map .slot ∧
    (s.flushFollowers c).store.followers = [] ∧ (∀ a, (s.flushFollowers c).list a = s.list a) ∧
    (∀ r, (s.flushFollowers c).barrier r = s.barrier r) ∧
    (s.flushFollowers c).store.safeList = s.store.safeList ∧ (∀ a, (s.flushFollowers c).stn a = s.stn a) := by
  rw [State.flushFollowers_eq]
  obtain ⟨h1, h2, h3, h4, h5, h6, h7⟩ := State.foldl_finish
    (fun t i => if (t.slot i).kind = some .cancel then c else (t.slot i).result.getD .ok) s.store.followers
    { s with store := { s.store with followers := [] } }
  refine ⟨h1, h2, h3, fun a => ?_, fun r => ?_, h6, fun a => State.stn_congr h7 a⟩
  · unfold State.list; rw [h4]
  · unfold State.barrier; rw [h5]

theorem State.flushFollowers_none (s : State) (c : Status) (h : s.store.followers = []) : s.flushFollowers c = s := by
  rw [State.flushFollowers_eq, h]
  obtain ⟨ctrl, irq, line, link, stations, store, arb, res, fetch, post, susp, port, pending⟩ := s
  obtain ⟨slots, lists, safeList, barriers, followers, postList, nextOrder⟩ := store
  simp only at h
  subst h
  rfl

/-! ### Order in a list -/

theorem State.reorder_slot (s : State) (a : StationId) (i : SlotId) : (s.reorder a).slot i = s.slot i := by
  unfold State.reorder; split
  · rfl
  · split <;> rfl

theorem State.reorder_store (s : State) (a : StationId) :
    (s.reorder a).store.followers = s.store.followers ∧ (s.reorder a).store.postList = s.store.postList ∧
    (s.reorder a).store.safeList = s.store.safeList ∧ (s.reorder a).stations = s.stations := by
  unfold State.reorder; split
  · exact ⟨rfl, rfl, rfl, rfl⟩
  · split <;> exact ⟨rfl, rfl, rfl, rfl⟩

/-! ### The end of a turn -/

/-- The flags alone of the slots in `l` are cleared. -/
theorem State.foldl_unflag (l : List SlotId) (s : State) :
    (∀ j, (l.foldl (fun t i => t.setSlot i { t.slot i with unknown := false }) s).slot j =
      { s.slot j with unknown := (s.slot j).unknown && !decide (j ∈ l) }) ∧
    ∃ slots, l.foldl (fun t i => t.setSlot i { t.slot i with unknown := false }) s =
      { s with store := { s.store with slots := slots } } := by
  induction l generalizing s with
  | nil => exact ⟨fun j => by simp, s.store.slots, rfl⟩
  | cons a l ih =>
    rw [List.foldl_cons]
    obtain ⟨h1, slots, h2⟩ := ih (s.setSlot a { s.slot a with unknown := false })
    refine ⟨fun j => ?_, slots, by rw [h2]; rfl⟩
    rw [h1]
    by_cases hj : j = a
    · subst hj; simp
    · rw [State.slot_setSlot_other _ _ hj]; simp [hj]

/-- What the end of a turn to a station does by R189: the exchanges of its list lose the flag, and RESYNC is set if one had it. -/
theorem State.clearUnknown_spec (s : State) (a : StationId) :
    (∀ j, (s.clearUnknown a).slot j = { s.slot j with unknown := (s.slot j).unknown && !decide (j ∈ s.list a) }) ∧
    ∃ slots, s.clearUnknown a = (if (s.list a).any (fun j => (s.slot j).unknown)
      then { s with store := { s.store with slots := slots } }.setResync a else s) := by
  by_cases hf : (s.list a).filter (fun i => (s.slot i).unknown) = []
  · have h : ∀ j ∈ s.list a, (s.slot j).unknown = false := by simpa using hf
    rw [show s.clearUnknown a = s by simp [State.clearUnknown, hf]]
    refine ⟨fun j => ?_, s.store.slots, ?_⟩
    · by_cases hj : j ∈ s.list a
      · simp [hj, ← h j hj]
      · simp [hj]
    · rw [if_neg]; simpa using h
  · obtain ⟨h1, slots, h2⟩ := State.foldl_unflag ((s.list a).filter fun i => (s.slot i).unknown) s
    have h : (s.list a).any (fun j => (s.slot j).unknown) = true := by simpa using hf
    have e : s.clearUnknown a = { s with store := { s.store with slots := slots } }.setResync a := by
      simp only [State.clearUnknown, if_neg hf, h2]
    refine ⟨fun j => ?_, slots, by rw [if_pos h, e]⟩
    have := h1 j
    rw [h2] at this
    rw [e, State.slot_congr (State.setResync_store _ a), this]
    by_cases hu : (s.slot j).unknown = true <;> by_cases hj : j ∈ s.list a <;> simp [hu, hj]

/-- Without an outcome-unknown exchange in the station's list, R189 changes nothing. -/
theorem State.clearUnknown_none (s : State) (a : StationId) (h : ∀ i ∈ s.list a, (s.slot i).unknown = false) :
    s.clearUnknown a = s := by
  unfold State.clearUnknown
  have : (s.list a).filter (fun i => (s.slot i).unknown) = [] := by
    rw [List.filter_eq_nil_iff]; intro i hi; simp [h i hi]
  simp [this]

/-! ### Purges (R58, R59) -/

/-- The fold by which a purge ends the exchanges of `l`, all of them in the list of station `a`. -/
theorem State.foldl_endExchange (a : StationId) (st : Status) (l : List SlotId) (s : State) (hs : s.listSound a)
    (hn : l.Nodup) (hl : ∀ i ∈ l, i ∈ s.list a) (t : State) (ht : t = l.foldl (fun t i => t.endExchange i st) s) :
    t.list a = (s.list a).filter (fun i => i ∉ l) ∧ (∀ b, b ≠ a → t.list b = s.list b) ∧
    (∀ r, t.barrier r = s.barrier r) ∧ t.store.safeList = s.store.safeList ∧ t.store.followers = s.store.followers ∧
    t.store.postList = s.store.postList ++ l.map PostEntry.slot ∧
    (∀ i ∈ l, t.slot i = { s.slot i with life := .done, result := some st, held := none }) ∧
    (∀ i, i ∉ l → t.slot i = s.slot i) ∧
    t.stn a = { s.stn a with depth := (s.stn a).depth - min l.length ((s.stn a).depth - (s.stn a).targetDepth) } ∧
    (∀ b, b ≠ a → t.stn b = s.stn b) := by
  induction l generalizing s with
  | nil => subst ht; simp
  | cons x l ih =>
    rw [List.foldl_cons] at ht
    obtain ⟨hnd, hsd⟩ := hs
    have hx : x ∈ s.list a := hl x (by simp)
    obtain ⟨hxa, k, hxk, hku⟩ := hsd x hx
    obtain ⟨e1, e2, e3, e4, e5, e6⟩ := s.endExchange_station st hxk hku hxa
    have hxl : x ∉ l := (List.nodup_cons.1 hn).1
    have hne : ∀ i ∈ s.list a, i ≠ x → i ∈ (s.endExchange x st).list a := by
      intro i hi hix; rw [e1]; exact (List.mem_erase_of_ne hix).2 hi
    have hsound : (s.endExchange x st).listSound a := by
      refine ⟨by rw [e1]; exact hnd.erase x, fun i hi => ?_⟩
      rw [e1] at hi
      have hix : i ≠ x := fun e => by subst e; exact (List.Nodup.not_mem_erase hnd) hi
      rw [s.endExchange_slot_other st hix]
      exact hsd i (List.mem_of_mem_erase hi)
    obtain ⟨f1, f2, f3, f4, f5, f6, f7, f8, f9, f10⟩ := ih (s.endExchange x st) hsound (List.nodup_cons.1 hn).2
      (fun i hi => hne i (hl i (by simp [hi])) (fun e => hxl (e ▸ hi))) ht
    refine ⟨?_, fun b hb => (f2 b hb).trans (e2 b hb), fun r => (f3 r).trans (e3 r), f4.trans e4,
      f5.trans (s.endExchange_followers x st), ?_, ?_, ?_, ?_, fun b hb => (f10 b hb).trans (e6 b hb)⟩
    · rw [f1, e1, hnd.erase_eq_filter, List.filter_filter]
      apply List.filter_congr
      intro i hi
      simp only [List.mem_cons, not_or, decide_not, Bool.decide_and]
      by_cases h : i = x <;> simp [h]
    · rw [f6, s.endExchange_postList]; simp
    · intro i hi
      rcases List.mem_cons.1 hi with rfl | hi
      · rw [f8 i hxl, s.endExchange_slot]
      · rw [f7 i hi, s.endExchange_slot_other st (fun e => hxl (by rw [← e]; exact hi))]
    · intro i hi
      simp only [List.mem_cons, not_or] at hi
      rw [f8 i hi.2, s.endExchange_slot_other st hi.1]
    · rw [f9, e5]
      simp only [hx, true_and, List.length_cons]
      congr 1
      split <;> omega

/-- What a purge does, for a sound list. -/
theorem State.purge_spec (s : State) (a : StationId) (keep : Slot → Bool) (st : Status) (hs : s.listSound a) :
    Purged s (s.purge a keep st) a keep st ∧ (∀ b, b ≠ a → (s.purge a keep st).stn b = s.stn b) ∧
    (∀ i, s.turnSlot = some i → (s.purge a keep st).slot i = s.slot i) ∧
    (s.purge a keep st).stn a = { s.stn a with depth := ((s.purge a keep st).stn a).depth } := by
  obtain ⟨f1, f2, f3, f4, f5, f6, f7, f8, f9, f10⟩ := State.foldl_endExchange a st
    ((s.list a).filter fun i => !keep (s.slot i) && s.turnSlot != some i) s hs (hs.1.filter _)
    (fun i hi => List.mem_of_mem_filter hi) (s.purge a keep st) rfl
  have he : ((s.list a).filter fun i => !keep (s.slot i) && s.turnSlot != some i)
      = (s.list a).filter fun i => !(keep (s.slot i) || s.turnSlot == some i) := by
    apply List.filter_congr; intro i _; simp [bne]
  have hstay : (s.list a).filter (fun i => i ∉ (s.list a).filter fun i => !keep (s.slot i) && s.turnSlot != some i)
      = (s.list a).filter fun i => keep (s.slot i) || s.turnSlot == some i := by
    apply List.filter_congr; intro i hi
    by_cases h1 : keep (s.slot i) = true <;> by_cases h2 : s.turnSlot = some i <;> simp_all
  refine ⟨?_, f10, ?_, ?_⟩
  · simp only [Purged]
    rw [← he]
    exact ⟨f1.trans hstay, f2, f3, f4, f5, f6, f7, fun i hi _ => f8 i hi, by rw [f9]⟩
  · intro i hi; exact f8 i (by simp [hi])
  · rw [f9]

end Sys2Proof.Machine
end

