-- ==== Sys2Proof/WellFormed.lean ====
section
/-! DEFINITION. Which commands are well formed: the checks on a command's operands that need no state. -/

namespace Sys2Proof

/-- The six command codes of Table 12-11. -/
def namesCommand (code : Word) : Bool := 1 ≤ code.toNat && code.toNat ≤ 6

/-- A command's operands have the shape the event gives them: a read brings exactly the bytes that were asked for, and an
unknown command's code names no command. -/
def Instr.wf : Instr → Bool
  | .unknownCommand code => !namesCommand code
  | .configReadDone data => data.length == Config.configBytes
  | .blockReadDone _ data => data.length ≤ Config.maxPayload
  | .entryReadDone data => data.length == 32
  | .headerReadDone data => data.length == 64
  | .stationRecordsReadDone data => data.length == 320
  | .contextsReadDone data => data.length % 48 == 0 && data.length ≤ 3072
  | .powerOn => true
  | .start => true
  | .suspendGraceful => true
  | .suspendImmediate => true
  | .resume => true
  | .lineReset => true
  | .fullReset => true
  | .cqHeadWrite _ => true
  | .sqTailWrite _ _ => true
  | .irqCauseWrite _ => true
  | .irqEnableWrite _ => true
  | .configAddressWrite _ _ => true
  | .ignoredRegisterWrite _ _ => true
  | .configReadFault => true
  | .resetComplete => true
  | .arbiterChoice => true
  | .emptyCycleTimerExpiry => true
  | .holdOffExpiry _ => true
  | .masterFrameEnd => true
  | .startLimitExpiry => true
  | .gapLimitExpiry => true
  | .frameReceived _ => true
  | .garbledReception _ => true
  | .lineActivity => true
  | .retryGuardElapsed => true
  | .blockReadFault _ => true
  | .blockWriteDone _ => true
  | .blockWriteFault _ => true
  | .entryReadStart => true
  | .entryReadFault => true
  | .recordWriteStart => true
  | .recordWriteDone => true
  | .recordWriteFault => true
  | .suspendQuiesced => true
  | .imageWriteStart => true
  | .imageWriteDone => true
  | .imageWriteFault => true
  | .imageHeaderWriteDone => true
  | .imageReadFault => true
  | .spentWriteDone => true
  | .spentWriteFault => true
  | .stationCharacterReceived _ => true

end Sys2Proof
end

