-- ==== Sys2Proof/Tests/Slice0.lean ====
section
/-! SUPPORT. The tests: ill-formed commands are refused, a few results the spec writes out, and for each statement with hypotheses a
state and operands that meet them. -/

namespace Sys2Proof.Tests

-- The theorems are elaborated one after another: each kernel evaluation in a task of its own asks for too many threads at once.
set_option Elab.async false

open Sys2Proof.Machine

/-! ### Ill-formed commands -/

theorem test_wf_unknown_command : (Instr.unknownCommand 1).wf = false ∧ (Instr.unknownCommand 6).wf = false := by decide
theorem test_wf_config : (Instr.configReadDone []).wf = false := by decide
theorem test_wf_block_long : (Instr.blockReadDone 0 (List.replicate 121 0)).wf = false := by decide +kernel
theorem test_wf_entry : (Instr.entryReadDone (List.replicate 31 0)).wf = false := by decide
theorem test_wf_header : (Instr.headerReadDone (List.replicate 63 0)).wf = false := by decide
theorem test_wf_records : (Instr.stationRecordsReadDone (List.replicate 319 0)).wf = false := by decide +kernel
theorem test_wf_contexts : (Instr.contextsReadDone (List.replicate 47 0)).wf = false := by decide
theorem test_wf_contexts_many : (Instr.contextsReadDone (List.replicate 3120 0)).wf = false := by decide +kernel

/-! ### Results the spec writes out -/

/-- R4: the check of the nine byte values 31h to 39h is 29B1h. -/
theorem test_crc : crc [0x31, 0x32, 0x33, 0x34, 0x35, 0x36, 0x37, 0x38, 0x39] = 0x29B1#16 := by decide +kernel

/-- A WRITE to station 5 with M and LAST of the bytes 01 02: the CHECK is computed by hand from R4. -/
theorem test_master_frame :
    (Image.make 5 .write true true [1, 2]).chars = [0xA6, 0x05, 0x54, 0x02, 0x01, 0x02, 0xF0, 0x82] := by decide +kernel

/-- R7: a master frame takes 6 + LENGTH ct. -/
theorem test_frame_time : (Image.make 5 .poll true false []).time = 6 := by decide

/-- Table 7-4, steps 1 and 4: a garbled range is split at its middle; a garbled single address is called once more. -/
theorem test_garbled_range :
    (garbledStack [] { lo := 30, hi := 33, second := false }).map (fun r => (r.lo, r.hi, r.second)) =
      [(30, 31, false), (32, 33, false)] ∧
    (garbledStack [] { lo := 31, hi := 31, second := false }).map (fun r => (r.lo, r.hi, r.second)) = [(31, 31, true)] := by
  decide

/-- Table 7-4, step 7: behind an ATTN from 32 the rest of 32 to 33 is pushed. -/
theorem test_remainder :
    (remainderStack [] { lo := 32, hi := 33, second := false } 32).map (fun r => (r.lo, r.hi)) = [(33, 33)] := by decide

/-- Table 5-3: a SEND of 250 bytes in blocks of 100; the third is 50 bytes at offset 200 with LAST. -/
theorem test_blocks :
    nextBlock { Slot.reset with len := 250, bytes := 100 } 100 = { offset := 100, size := 100, last := false } ∧
    nextBlock { Slot.reset with len := 250, bytes := 200 } 100 = { offset := 200, size := 50, last := true } := by decide

/-- R75: take numbers are compared modulo 2^32. -/
theorem test_take_wraps : takeEarlier 0xFFFFFFFF 0 = true ∧ takeEarlier 0 0xFFFFFFFF = false ∧ takeEarlier 5 5 = false := by decide

/-- Table 1-1, R1: the SYNC character A6h on the line, its least significant bit first between start bit and stop bit. -/
theorem test_character : charBits 0xA6 = [false, false, true, true, false, false, true, false, true, true] := by decide

/-- R204, Table 12-11: the codes of COMMAND. -/
theorem test_command_codes :
    [1, 2, 3, 4, 5, 6, 7].map (fun n => commandOf (BitVec.ofNat 32 n)) =
      [.start, .suspendGraceful, .suspendImmediate, .resume, .lineReset, .fullReset, .unknownCommand 7] := by decide

/-! ### The states of the tests -/

/-- Station 1: UP, T 10, retry limit 2, D 3, depth 4, block size 8. -/
def stn0 : Station :=
  { Station.reset with
    present := true, timeout := 10, retryLimit := 2, downLimit := 3, depth := 4, targetDepth := 4, blockSize := 8
    attnEnabled := true, state := .up }

/-- Ring 0: SUPERVISORY, NORMAL, 8 entries. -/
def ring0 : Ring := { Ring.reset with enabled := true, size := 8, cls := .supervisory }

/-- RUNNING, with one station, one ring, a completion ring of 16 positions and an image area. -/
def run : State :=
  { State.reset with
    ctrl := { Controller.reset with state := .running }
    line := { rate := 0, guardTime := 1, attnWindow := 4, holdOffTime := 16 }
    stations := State.reset.stations.set 0 stn0
    arb := { Arbiter.reset with schedule := [0], ratio := 1 }
    res := { Resolver.reset with lo := 1, hi := 40 }
    fetch := { Fetcher.reset with rings := Fetcher.reset.rings.set 0 ring0 }
    post := { Poster.reset with size := 16 }
    susp := { SuspendUnit.reset with imageBase := 4096 } }

/-- `run` in another controller state. -/
def inState (c : CtrlState) : State := run.setCtrl c

/-- A turn in its first try of three. -/
def turn (p : Purpose) (k : MKind) : Turn :=
  { purpose := p, kind := k, image := Image.make 1 k false false [], startLimit := some 10, allowed := 3, tries := 1 }

/-- `s` with the turn `u` in a phase. -/
def atPhase (s : State) (u : Turn) (p : LinkPhase) (rx : List Byte) : State :=
  { s with link := { s.link with phase := p, turn := some u, rx := rx } }

/-- A running exchange of station 1. -/
def slotOf (k : ExKind) : Slot :=
  { Slot.reset with life := .active, kind := some k, station := some 0, len := 8, begun := true, tries := 1 }

/-- A block of two bytes, not the last. -/
def block : HeldBlock := { form := { offset := 0, size := 2, last := false }, data := [1, 2] }

/-- `run` with an exchange of kind `k` in slot 0 at the head of station 1's list. -/
def withSlot (k : ExKind) : State := (run.setSlot 0 (slotOf k)).setList 0 [0]

/-- A command's answer is a next state. -/
def goesOn (r : Reply) : Bool :=
  match r with
  | .next _ => true
  | .fault _ => false
  | .refused _ => false

theorem of_goesOn {r : Reply} (h : goesOn r = true) : ∃ t, r = .next t := by
  match r, h with
  | .next t, _ => exact ⟨t, rfl⟩

/-- `s` with one command waiting. -/
def next (c : Instr) (s : State) : State := { s with pending := [c] }

/-- `s` with a turn in progress in a phase whose limit or frame has `n` ct left. -/
def leaving (n : Nat) (s : State) : State := { s with link := { s.link with phaseLeft := n } }

/-! ### Registers, commands and configuration: the hypotheses of the statements can be met -/

/-- The empty-cycle timer runs. -/
def emptyCycle (n : Nat) : State := { run with arb := { run.arb with emptyTimer := some n } }

/-- Station 1 holds off. -/
def holdingOff : State := run.setStn 0 { stn0 with holdOff := some 16 }

theorem witness_LineTimePasses :
    ((run.pending = [] ∧ run.ctrl.state = .running) ∧
      ((inState .suspending).pending = [] ∧ (inState .suspending).ctrl.state = .suspending) ∧
      (State.reset.pending = [] ∧ State.reset.ctrl.state ≠ .running ∧ State.reset.ctrl.state ≠ .suspending)) ∧
    ((emptyCycle 128).ctrl.state = .running ∧ (emptyCycle 128).arb.emptyTimer = some 128 ∧
      (emptyCycle 128).link.phase = .idle ∧ (emptyCycle 128).link.guardLeft ≤ 128) ∧
    ((emptyCycle 1).arb.emptyTimer = some 1 ∧ 1 < { (emptyCycle 1).link with guardLeft := 4 }.guardLeft) ∧
    (atPhase (emptyCycle 128) (turn (.poll 0) .poll) .sending []).link.phase ≠ .idle ∧
    (holdingOff.ctrl.state = .running ∧ (holdingOff.stn 0).holdOff = some 16) := by decide +kernel

/-- R11, R12: a listen period whose limit is past is late, and a character cannot come before the limit's own event. -/
theorem test_late :
    let waits := fun n => (leaving n (atPhase run (turn (.poll 0) .poll) .listening [])).elapse 1
    (waits 1).link.late = false ∧ (waits 0).link.late = true ∧
    goesOn (exec (.stationCharacterReceived 0xA6) (waits 1)) = true ∧ goesOn (exec (.stationCharacterReceived 0xA6) (waits 0)) = false := by
  decide +kernel

/-- The part in OFF with a configuration address. -/
def offAt (lo : Word) : State := { State.reset with ctrl := { Controller.reset with configLo := lo } }

theorem witness_StartAndResumeBeginReading :
    ((offAt 64).ctrl.state = .off ∧ 64 = (offAt 64).ctrl.configLo.toNat + 2 ^ 32 * (offAt 64).ctrl.configHi.toNat ∧ 64 % 64 = 0) ∧
    ((offAt 63).ctrl.state = .off ∧ 63 = (offAt 63).ctrl.configLo.toNat + 2 ^ 32 * (offAt 63).ctrl.configHi.toNat ∧
      63 % 64 ≠ 0) ∧ (inState .suspended).ctrl.state = .suspended := by decide +kernel

theorem witness_CommandsRefusedByState :
    run.ctrl.state ≠ .off ∧ State.reset.ctrl.state ≠ .running ∧
    { run with susp := SuspendUnit.reset }.susp.imageBase = 0 ∧ run.ctrl.state ≠ .suspended ∧
    (inState .resetting).ctrl.state = .resetting ∧ ((0 : Word).toNat = 0 ∧ 6 < (7 : Word).toNat) ∧
    (1 ≤ (1 : Word).toNat ∧ (6 : Word).toNat ≤ 6) := by decide +kernel

/-- A SEND's WRITE in its first try, heard so far `rx`. -/
def sending (rx : List Byte) : State :=
  atPhase ((run.setSlot 0 { slotOf .send with held := some block }).setList 0 [0]) (turn (.exchange 0 0) .write) .listening rx

/-- A poll of station 1, heard so far `rx`. -/
def polling (rx : List Byte) : State :=
  { atPhase run (turn (.poll 0) .poll) .listening rx with post := { run.post with unsolCredits := 1 } }

/-- `run` with a SAFE of some repeats in slot 0. -/
def withSafe (repeats : Nat) : State :=
  let t := run.setSlot 0 { slotOf .safe with station := none, repeats := repeats }
  { t with store := { t.store with safeList := [0] } }

/-- The SAFE frame is being sent. -/
def safeSending (repeats : Nat) : State := atPhase (withSafe repeats) (turn (.safe 0) .safe) .sending []

/-- A CANCEL of the exchange in slot 0, which follows the turn from slot 1. -/
def cancelling (s : State) : State :=
  let t := (s.setSlot 0 { s.slot 0 with cancelBy := some 1 }).setSlot 1 { slotOf .cancel with targetTag := 0 }
  { t with store := { t.store with followers := [1] } }

/-- A CALL step, a confirm POLL under the reservation, a link CLEAR and a recovery probe, heard so far `rx`. -/
def calling (stack : List SearchRange) (r : SearchRange) (rx : List Byte) : State :=
  let t := atPhase run (turn (.call r.lo r.hi) .call) .listening rx
  { t with
    res := { t.res with stack := stack, reserved := true, step := .call r }
    post := { t.post with unsolCredits := 1 } }
def confirming : State :=
  let t := atPhase run (turn (.confirm 0) .poll) .listening []
  { t with res := { t.res with reserved := true, latched := some 0, step := .confirm }, post := { t.post with unsolCredits := 1 } }
def clearing (rx : List Byte) : State := atPhase run (turn (.linkClear 0) .clear) .listening rx
def probing (rx : List Byte) : State :=
  atPhase (run.setStn 0 { stn0 with state := .down }) (turn (.recovery 0) .probe) .listening rx

/-- A state in which SUSPEND_IMMEDIATE abandons a turn for `p`. -/
def abandons (s : State) (p : Purpose) : Prop :=
  s.ctrl.state = .running ∧ s.susp.imageBase ≠ 0 ∧ ∃ u, s.link.turn = some u ∧ u.purpose = p

theorem witness_SuspendCommandsBegin :
    (run.ctrl.state = .running ∧ run.susp.imageBase ≠ 0 ∧ run.link.turn = none) ∧
    (abandons (sending []) (.exchange 0 0) ∧ 0 ∉ (sending []).store.followers ∧ ((sending []).slot 0).result = none ∧
      ((sending []).slot 0).cancelBy = none ∧ ((sending []).slot 0).station = some 0) ∧
    (abandons (cancelling (sending [])) (.exchange 0 0) ∧ 0 ∉ (cancelling (sending [])).store.followers ∧
      ((cancelling (sending [])).slot 0).result = none ∧ ((cancelling (sending [])).slot 0).cancelBy ≠ none ∧
      ((cancelling (sending [])).slot 0).kind = some .send) ∧
    (((sending []).setSlot 0 { (sending []).slot 0 with result := some .stationFenced }).slot 0).result = some .stationFenced ∧
    (abandons (safeSending 2) (.safe 0) ∧ ((safeSending 2).slot 0).kind = some .safe ∧ ((safeSending 2).slot 0).station = none) ∧
    abandons (polling []) (.poll 0) ∧ abandons (calling [] ⟨1, 40, false⟩ []) (.call 1 40) ∧ abandons confirming (.confirm 0) ∧
    abandons (clearing []) (.linkClear 0) ∧ abandons (probing []) (.recovery 0) := by
  refine ⟨by decide +kernel, ⟨⟨by decide +kernel, by decide +kernel, _, rfl, rfl⟩, by decide +kernel⟩,
    ⟨⟨by decide +kernel, by decide +kernel, _, rfl, rfl⟩, by decide +kernel⟩, by decide +kernel,
    ⟨⟨by decide +kernel, by decide +kernel, _, rfl, rfl⟩, by decide +kernel⟩, ?_, ?_, ?_, ?_, ?_⟩ <;>
  exact ⟨by decide +kernel, by decide +kernel, _, rfl, rfl⟩

theorem witness_LineResetEndsEverything :
    (sending []).ctrl.state = .running ∧
    [0] = (sending []).turnSlot.toList ++ (sending []).store.followers ++ ((sending []).store.safeList ++
      (List.finRange 40).flatMap (sending []).list ++ (List.finRange 4).flatMap (sending []).barrier).filter
        (fun i => (sending []).turnSlot != some i) ∧
    ((sending []).stn 0).state = .up ∧ ((sending []).stn 1).state = .vacant := by decide +kernel

theorem witness_PowerOnAndFullReset :
    run.ctrl.state ≠ .resetting ∧
    ((inState .resetting).ctrl.state = .resetting ∧ (inState .resetting).port.config = none ∧
      (inState .resetting).port.entry = none ∧ (∀ i, (inState .resetting).xfer i = none) ∧
      (inState .resetting).port.record = none ∧ (inState .resetting).port.image = none) := by decide +kernel

/-- `run` with `n` records unconsumed. -/
def unconsumed (n : Nat) : State := { run with post := { run.post with unconsumed := n } }

theorem witness_RingIndexWritesAreChecked :
    State.reset.ctrl.state = .off ∧ (inState .halted).ctrl.state = .halted ∧
    ((unconsumed 3).ctrl.state = .running ∧ 3 = (3 : Word).toNat % 4096 % (unconsumed 3).post.size ∧
      3 < (unconsumed 3).post.size ∧ ((unconsumed 3).post.head + 3) % (unconsumed 3).post.size = 3 ∧
      (unconsumed 3).post.unconsumed < (unconsumed 3).post.size ∧ 3 ≤ (unconsumed 3).post.unconsumed) ∧
    (4 = (4 : Word).toNat % 4096 % (unconsumed 3).post.size ∧ 4 < (unconsumed 3).post.size ∧
      ((unconsumed 3).post.head + 4) % (unconsumed 3).post.size = 4 ∧ (unconsumed 3).post.unconsumed < 4) ∧
    ((unconsumed 16).ctrl.state = .running ∧ (unconsumed 16).post.size ≤ (unconsumed 16).post.unconsumed ∧
      1 = (1 : Word).toNat % 4096 % (unconsumed 16).post.size ∧
      ((unconsumed 16).post.head + 1) % (unconsumed 16).post.size = 1 ∧
      0 = (0 : Word).toNat % 4096 % (unconsumed 16).post.size ∧
      ((unconsumed 16).post.head + 0) % (unconsumed 16).post.size = 0) ∧
    (inState .halted).ctrl.state = .halted ∧
    (run.ctrl.state ≠ .halted ∧ run.ctrl.state ≠ .resetting ∧ (run.ring 0).enabled = true ∧ 7 = (7 : Word).toNat % 1024 ∧
      7 < (run.ring 0).size ∧ 7 ≠ (run.ring 0).head) ∧
    (8 = (8 : Word).toNat % 1024 ∧ (run.ring 0).size ≤ 8) ∧ (run.ring 1).enabled = false ∧
    (0 = (0 : Word).toNat % 1024 ∧ (run.ring 0).staged = none ∧ 0 = (run.ring 0).head ∧ run.port.entry = none) ∧
    ((run.setRing 0 { ring0 with staged := some [] }).ring 0).staged ≠ none := by decide +kernel

theorem witness_InterruptsAndPlainRegisters :
    run.ctrl.state ≠ .resetting ∧ (inState .resetting).ctrl.state = .resetting ∧ State.reset.ctrl.state = .off ∧
    run.ctrl.state ≠ .off := by decide +kernel

/-- A configuration record of 744 bytes: G 1, A 4, W 1, H 16, range 1 to 40, one schedule entry, image area at 4096, completion ring
of 16, ring 0 of 8 entries SUPERVISORY, one window of 4096 bytes at 0 granting GENERAL read, station 1 present; station 40's present byte is `p` and its last byte is `q`. -/
def configRecord (p q : Byte) : List Byte :=
  [0, 1, 4, 1, 16, 0, 0, 0, 1, 40, 1, 1] ++ zeros 4 ++ [1] ++ zeros 63 ++ [0, 16, 0, 0, 0, 0, 0, 0] ++ zeros 8 ++ [16, 0]
    ++ zeros 6 ++ [1, 1, 0, 0, 8, 0] ++ zeros 10 ++ zeros 48 ++ zeros 8 ++ [0, 16, 0, 0, 1, 0] ++ zeros 242 ++ [1, 10, 2, 3, 4, 8, 1, 0] ++ zeros 304
    ++ [p, 10, 2, 3, 4, 8, 1, q]

/-- R153, Table 12-5: the window of that record. -/
theorem test_window : (State.reset.load (configRecord 1 0)).fetch.windows =
    [{ base := 0, length := 4096, genRead := true, genWrite := false }] := by decide +kernel

/-- CONFIGURING with the read in flight. -/
def configuring : State := { inState .configuring with port := { Port.reset with config := some 0 } }

theorem witness_RegisterWindowBits :
    run.ctrl.state ≠ .resetting ∧ (0 : Word).toNat = 0 ∧ 6 < (7 : Word).toNat ∧
    configFailure (configRecord 1 2) = some 482 := by decide +kernel

theorem witness_ConfigurationIsLoaded :
    configuring.ctrl.state = .configuring ∧ configuring.port.config = some 0 ∧ (configRecord 1 0).length = 744 ∧
    configFailure (configRecord 1 0) = none ∧ byteAt (configRecord 1 0) (104 + 16 * 0) = 1 ∧
    byteAt (configRecord 1 0) (104 + 16 * 3) = 0 ∧ byteAt (configRecord 1 0) (424 + 8 * 39) = 1 ∧
    byteAt (configRecord 1 0) (424 + 8 * 1) = 0 ∧ 0 < byteAt (configRecord 1 0) 11 := by decide +kernel

theorem witness_ConfigurationFaultsHalt :
    configuring.ctrl.state = .configuring ∧ configuring.port.config = some 0 ∧ (configRecord 2 0).length = 744 ∧
    configFailure (configRecord 2 0) = some 475 ∧ configFailure (zeros 744) = some 2 := by decide +kernel

/-! ### Choices, timers and turns -/

theorem witness_ChoiceBeginsAtMostOneTurn :
    ∃ t, run.ctrl.state = .running ∧ run.link.phase = .idle ∧ run.link.turn = none ∧ run.link.driverEnable = false ∧
      exec .arbiterChoice run = .next t ∧
      run.post.unconsumed + (run.post.exCredits + run.post.unsolCredits + run.post.writeCredit) ≤ run.post.size ∧
      run.post.unsolCredits ≤ 4 := by
  obtain ⟨t, h⟩ := of_goesOn (show goesOn (exec .arbiterChoice run) = true by decide +kernel)
  exact ⟨t, by decide +kernel, by decide +kernel, by decide +kernel, by decide +kernel, h, by decide +kernel, by decide +kernel⟩

/-- `run` with station 1 in a state and a schedule `l` whose cursor stands at `c`. -/
def scheduled (st : StState) (l : List StationId) (c : Nat) : State :=
  { run.setStn 0 { stn0 with state := st } with arb := { run.arb with schedule := l, cursor := c, probeInterval := 1, attnInterval := 1 } }

/-- Cursor at an UP entry; an UP entry ahead of the wrap, at it and behind it; no UP entry; the timer running. -/
theorem witness_PollCursorSettles :
    ((scheduled .up [0] 0).arb.cursor < (scheduled .up [0] 0).arb.schedule.length ∧
      ((scheduled .up [0] 0).stn 0).state = .up ∧ (scheduled .up [0] 0).arb.emptyTimer = none) ∧
    ((scheduled .up [1, 0] 0).arb.schedule[(0 + 1) % 2]? = some 0 ∧ ((scheduled .up [1, 0] 0).stn 1).state ≠ .up ∧
      ¬(scheduled .up [1, 0] 0).arb.schedule.length ≤ (scheduled .up [1, 0] 0).arb.cursor + 1) ∧
    ((scheduled .up [0, 1] 1).arb.schedule[(1 + 1) % 2]? = some 0 ∧
      (scheduled .up [0, 1] 1).arb.schedule.length ≤ (scheduled .up [0, 1] 1).arb.cursor + 1) ∧
    ((scheduled .down [0] 0).arb.schedule.length ≤ (scheduled .down [0] 0).arb.cursor + 1 ∧
      ((scheduled .down [0] 0).stn 0).state ≠ .up) ∧
    (emptyCycle 128).arb.emptyTimer ≠ none := by decide +kernel

/-- `run` with station 1 JOINING. -/
def joining : State := run.setStn 0 { stn0 with state := .joining }

/-- `run` with an exchange of kind `k` and an urgency in slot 0 at the head of station 1's list. -/
def headed (k : ExKind) (urgent : Bool) : State := (run.setSlot 0 { slotOf k with urgent := urgent }).setList 0 [0]

/-- Where station 1's list is the only one, its head alone is eligible. -/
theorem eligible_of_alone {s : State} (h : ∀ a, s.list a = if a = 0 then [0] else []) {b : StationId} {j : SlotId}
    (he : s.eligible b j) : b = 0 ∧ j = 0 := by
  have h1 := he.1
  rw [h] at h1
  split at h1
  · simp only [List.head?_cons, Option.some.injEq] at h1; exact ⟨‹_›, h1.symm⟩
  · simp at h1

theorem not_eligible {s : State} (h : ∀ a, s.list a = []) (b : StationId) (j : SlotId) : ¬s.eligible b j := by
  intro he; have h1 := he.1; rw [h] at h1; simp at h1

theorem headed_list (k : ExKind) (urgent : Bool) : ∀ a, (headed k urgent).list a = if a = 0 then [0] else [] := by
  cases k <;> cases urgent <;> decide +kernel

theorem headed_eligible (urgent : Bool) : (headed .query urgent).eligible 0 0 := by
  unfold State.eligible; cases urgent <;> decide +kernel

theorem witness_ChoiceTakesSafeRepairUrgent :
    ((withSafe 2).ctrl.state = .running ∧ (withSafe 2).link.phase = .idle ∧ (withSafe 2).store.safeList = 0 :: []) ∧
    (joining.ctrl.state = .running ∧ joining.link.phase = .idle ∧ joining.store.safeList = [] ∧
      FirstAfter joining.arb.joinPtr
        (fun b => (joining.stn b).state = .joining ∨ ((joining.stn b).state = .up ∧ (joining.stn b).resync = true)) 0) ∧
    ((headed .query true).store.safeList = [] ∧
      (∀ b, ¬(((headed .query true).stn b).state = .joining ∨
        (((headed .query true).stn b).state = .up ∧ ((headed .query true).stn b).resync = true))) ∧
      (headed .query true).eligible 0 0 ∧ ((headed .query true).slot 0).urgent = true ∧
      (∀ b j, (headed .query true).eligible b j → ((headed .query true).slot j).urgent = true → j ≠ 0 →
        ((headed .query true).slot 0).order < ((headed .query true).slot j).order) ∧
      ∀ b, (headed .query true).eligible b 0 → b = 0) := by
  refine ⟨by decide +kernel, ⟨by decide +kernel, by decide +kernel, by decide +kernel, ?_⟩, by decide +kernel, by decide +kernel,
    headed_eligible true, by decide +kernel, fun b j h _ hj => absurd (eligible_of_alone (headed_list _ _) h).2 hj,
    fun b h => (eligible_of_alone (headed_list _ _) h).1⟩
  unfold FirstAfter; decide +kernel

/-- A latch at station 1, in a state, over a stack. -/
def latchedAt (st : StState) (stack : List SearchRange) : State :=
  let t := run.setStn 0 { stn0 with state := st }
  { t with res := { t.res with latched := some 0, reserved := true, stack := stack }, post := { t.post with unsolCredits := 1 } }

/-- A search with one range waiting and `n` unsolicited credits taken. -/
def searchingFrom (n : Nat) : State :=
  { run with res := { run.res with stack := [⟨1, 40, false⟩] }, post := { run.post with unsolCredits := n } }

/-- A normal QUERY head with `n` work turns since the last poll, W being 1. -/
def working (n : Nat) : State := { headed .query false with arb := { run.arb with workCount := n } }

/-- Station 1 DOWN with a recovery probe due. -/
def recovering : State :=
  let t := run.setStn 0 { stn0 with state := .down }
  { t with arb := { t.arb with recoveryDue := true } }

/-- A latch at station 2, which is VACANT, holds the fourth unsolicited credit. -/
def dropping : State :=
  { run with res := { run.res with latched := some 1, reserved := true }, post := { run.post with unsolCredits := 4 } }

/-- A search with no unsolicited credit left, and a normal QUERY head. -/
def abandoning : State :=
  { headed .query false with res := { run.res with stack := [⟨1, 40, false⟩] }, post := { run.post with unsolCredits := 4 } }

/-- The premises that the clauses of the statement share. -/
def plainChoice (s : State) : Prop :=
  s.ctrl.state = .running ∧ s.link.phase = .idle ∧ s.store.safeList = [] ∧
  (∀ b, (s.stn b).state ≠ .joining ∧ ¬((s.stn b).state = .up ∧ (s.stn b).resync = true)) ∧
  ∀ b j, s.eligible b j → (s.slot j).urgent = false

theorem plainChoice_of_empty {s : State} (h : ∀ a, s.list a = []) (hs : s.ctrl.state = .running ∧ s.link.phase = .idle ∧
    s.store.safeList = [] ∧ ∀ b, (s.stn b).state ≠ .joining ∧ ¬((s.stn b).state = .up ∧ (s.stn b).resync = true)) :
    plainChoice s := ⟨hs.1, hs.2.1, hs.2.2.1, hs.2.2.2, fun b j he => absurd he (not_eligible h b j)⟩

theorem working_list (n : Nat) : ∀ a, (working n).list a = if a = 0 then [0] else [] := headed_list .query false

theorem working_plain (n : Nat) : plainChoice (working n) := by
  refine ⟨by rfl, by rfl, by rfl, show ∀ b, ((headed .query false).stn b).state ≠ .joining ∧
    ¬(((headed .query false).stn b).state = .up ∧ ((headed .query false).stn b).resync = true) by decide +kernel, fun b j he => ?_⟩
  obtain ⟨-, rfl⟩ := eligible_of_alone (working_list n) he
  exact show ((headed .query false).slot 0).urgent = false by decide +kernel

theorem witness_ChoiceTakesAttentionWorkPoll_attention :
    (plainChoice (latchedAt .up []) ∧
      ((latchedAt .up []).elapse (latchedAt .up []).link.guardLeft).settleCursor.res.latched = some 0 ∧
      ((latchedAt .up []).stn 0).state = .up) ∧
    (plainChoice (latchedAt .down [⟨1, 40, false⟩]) ∧ ((latchedAt .down [⟨1, 40, false⟩]).stn 0).state ≠ .up) ∧
    (plainChoice (searchingFrom 3) ∧
      ((searchingFrom 3).elapse (searchingFrom 3).link.guardLeft).settleCursor.res.stack = ⟨1, 40, false⟩ :: [] ∧
      (searchingFrom 3).creditFree ∧ (searchingFrom 3).post.unsolCredits < 4) ∧
    (plainChoice (searchingFrom 4) ∧ ¬((searchingFrom 4).creditFree ∧ (searchingFrom 4).post.unsolCredits < 4)) := by
  unfold State.creditFree
  refine ⟨⟨plainChoice_of_empty (by decide +kernel) (by decide +kernel), by decide +kernel⟩,
    ⟨plainChoice_of_empty (by decide +kernel) (by decide +kernel), by decide +kernel⟩,
    ⟨plainChoice_of_empty (by decide +kernel) (by decide +kernel), by decide +kernel⟩,
    ⟨plainChoice_of_empty (by decide +kernel) (by decide +kernel), by decide +kernel⟩⟩

/-- Behind a dropped latch with an empty stack, the credit it returned makes the poll due; behind a search that finds no credit there
is nothing due, with and without work. -/
theorem witness_ChoiceTakesAttentionWorkPoll_behind :
    (plainChoice dropping ∧ ((dropping.elapse dropping.link.guardLeft).settleCursor.res.latched = some 1 ∧
      (dropping.stn 1).state ≠ .up ∧ (dropping.elapse dropping.link.guardLeft).settleCursor.res.stack = [] ∧
      ¬(dropping.elapse dropping.link.guardLeft).settleCursor.pollIsDue 0 ∧
      ({ (dropping.elapse dropping.link.guardLeft).settleCursor with post := { dropping.post with unsolCredits := 3 } }).pollIsDue 0)) ∧
    (plainChoice (searchingFrom 4) ∧ ((searchingFrom 4).elapse (searchingFrom 4).link.guardLeft).settleCursor.res.stack ≠ [] ∧
      ¬(searchingFrom 4).post.unsolCredits < 4 ∧
      ∀ a, ¬((searchingFrom 4).elapse (searchingFrom 4).link.guardLeft).settleCursor.pollIsDue a) ∧
    (plainChoice abandoning ∧ abandoning.eligible 0 0 ∧ FirstAfter abandoning.arb.workPtr (fun a => a = 0) 0 ∧
      (abandoning.elapse abandoning.link.guardLeft).settleCursor.res.stack ≠ [] ∧ ¬abandoning.post.unsolCredits < 4) := by
  unfold FirstAfter State.pollIsDue State.creditFree
  refine ⟨⟨plainChoice_of_empty (by decide +kernel) (by decide +kernel), by decide +kernel⟩,
    ⟨plainChoice_of_empty (by decide +kernel) (by decide +kernel), by decide +kernel⟩,
    ⟨⟨by rfl, by rfl, by rfl, show ∀ b, ((headed .query false).stn b).state ≠ .joining ∧
      ¬(((headed .query false).stn b).state = .up ∧ ((headed .query false).stn b).resync = true) by decide +kernel, fun b j he => ?_⟩,
      by unfold State.eligible; decide +kernel, by decide +kernel⟩⟩
  obtain ⟨-, rfl⟩ := eligible_of_alone (headed_list .query false) he
  exact show ((headed .query false).slot 0).urgent = false by decide +kernel

/-- Work ahead of the ratio and at it, a probe, a poll inside the schedule and at its end, and nothing to do. -/
theorem witness_ChoiceTakesAttentionWorkPoll_work :
    (plainChoice (working 0) ∧ FirstAfter (working 0).arb.workPtr (fun a => a = 0) 0 ∧ (working 0).eligible 0 0 ∧
      (working 0).arb.workCount ≠ (working 0).arb.ratio) ∧
    (plainChoice (working 1) ∧ (working 1).arb.workCount = (working 1).arb.ratio) ∧
    (plainChoice recovering ∧ (recovering.elapse recovering.link.guardLeft).settleCursor.arb.recoveryDue = true ∧
      FirstAfter recovering.arb.recPtr (fun b => (recovering.stn b).state = .down) 0) ∧
    (plainChoice (scheduled .up [0, 0] 0) ∧
      ¬((scheduled .up [0, 0] 0).elapse (scheduled .up [0, 0] 0).link.guardLeft).settleCursor.probeIsDue ∧
      ((scheduled .up [0, 0] 0).elapse (scheduled .up [0, 0] 0).link.guardLeft).settleCursor.pollIsDue 0 ∧
      (scheduled .up [0, 0] 0).arb.cursor + 1 < (scheduled .up [0, 0] 0).arb.schedule.length ∧
      (scheduled .up [0] 0).arb.schedule.length ≤ (scheduled .up [0] 0).arb.cursor + 1) ∧
    (plainChoice (emptyCycle 128) ∧ (∀ a i, ¬(emptyCycle 128).eligible a i) ∧
      ∀ a, ¬((emptyCycle 128).elapse (emptyCycle 128).link.guardLeft).settleCursor.pollIsDue a) := by
  unfold FirstAfter State.probeIsDue State.pollIsDue State.creditFree
  refine ⟨⟨working_plain 0, by decide +kernel, by unfold State.eligible; decide +kernel, by decide +kernel⟩,
    ⟨working_plain 1, by decide +kernel⟩,
    ⟨plainChoice_of_empty (by decide +kernel) (by decide +kernel), by decide +kernel, by decide +kernel⟩,
    ⟨plainChoice_of_empty (by decide +kernel) (by decide +kernel), by decide +kernel⟩,
    plainChoice_of_empty (by decide +kernel) (by decide +kernel), fun a i => not_eligible (by decide +kernel) a i, by decide +kernel⟩

theorem safeSending_hypotheses (n : Nat) (h : n = 1 ∨ n = 2) :
    (safeSending n).works (turn (.safe 0) .safe) .sending ∧ ((safeSending n).slot 0).kind = some .safe ∧
      ((safeSending n).slot 0).station = none ∧ ((safeSending n).slot 0).result = none ∧
      ((safeSending n).slot 0).cancelBy = none ∧ (safeSending n).store.followers = [] ∧ (safeSending n).noneHeld := by
  unfold State.works State.noneHeld
  rcases h with rfl | rfl <;> decide +kernel

theorem witness_MasterFrameEnds :
    ((atPhase run (turn (.poll 0) .poll) .sending []).works (turn (.poll 0) .poll) .sending ∧
      (∀ i, (turn (.poll 0) .poll).purpose ≠ .safe i) ∧ (turn (.poll 0) .poll).startLimit = some 10) ∧
    (((safeSending 2).slot 0).blocks + 1 ≠ ((safeSending 2).slot 0).repeats ∧
      ((safeSending 1).slot 0).blocks + 1 = ((safeSending 1).slot 0).repeats) := by
  refine ⟨⟨?_, ?_, rfl⟩, by decide +kernel⟩
  · unfold State.works; decide +kernel
  · decide

/-- The SAFE in slot 0 of `safeSending 2` with a fixed result or a waiting CANCEL, a CANCEL in slot 1 following. -/
def safeFollowed (st : Option Status) (by1 : Option SlotId) : State :=
  let s := (safeSending 2).setSlot 0 { (safeSending 2).slot 0 with result := st, cancelBy := by1 }
  (s.setSlot 1 { Slot.reset with life := .active, kind := some .cancel }).addFollower 1

theorem witness_MasterFrameEnds_follower :
    ∀ s ∈ [safeFollowed (some .stationFenced) none, safeFollowed none (some 1), safeFollowed none none],
      s.works (turn (.safe 0) .safe) .sending ∧ (s.slot 0).kind = some .safe ∧ (s.slot 0).station = none ∧
        0 ∉ s.store.followers ∧ s.noneHeld ∧ (s.slot 0).blocks + 1 ≠ (s.slot 0).repeats := by
  unfold State.works State.noneHeld
  decide +kernel

/-- All characters of a station frame, and of one of station 1, with CONTROL `control` and payload `p`; the CHECK is that of R4. -/
def frameFrom (address control : Byte) (p : List Byte) : List Byte :=
  let body := address :: control :: BitVec.ofNat 8 p.length :: p
  0xA6 :: body ++ [(crc body).extractLsb' 8 8, (crc body).extractLsb' 0 8]
def frameOf : Byte → List Byte → List Byte := frameFrom 0x81

/-- `polling` with the characters `cs` heard but for the last; the last one. -/
def pollHears (cs : List Byte) : State := polling cs.dropLast
def lastOf (cs : List Byte) : Byte := cs.getLastD 0

theorem witness_FailedTryIsRetried :
    ((polling []).works (turn (.poll 0) .poll) .listening ∧ (turn (.poll 0) .poll).tries < (turn (.poll 0) .poll).allowed ∧
      (polling []).link.rx = [] ∧ (polling [0xA6]).link.rx ≠ [] ∧ (polling []).link.late = false ∧
      rxProgress ((polling []).link.rx ++ [0x00]) = .garbled) ∧
    (∀ lo hi, (turn (.poll 0) .poll).purpose ≠ .call lo hi) ∧
    (rxProgress ((atPhase run (turn (.poll 1) .poll) .listening (frameOf 0x0C []).dropLast).link.rx ++ [lastOf (frameOf 0x0C [])])
        = .frame ∧ (turn (.poll 1) .poll).purpose.station = some 1 ∧
      (RxFrame.ofChars (frameOf 0x0C [])).station ≠ some 1) ∧
    (atPhase run (turn (.poll 0) .poll) .retryGuard []).works (turn (.poll 0) .poll) .retryGuard ∧
    (atPhase run (turn (.exchange 0 0) .write) .retryGuard []).works (turn (.exchange 0 0) .write) .retryGuard := by
  refine ⟨?_, fun lo hi => by simp [turn], by decide +kernel, ?_, ?_⟩ <;> unfold State.works <;> decide +kernel

theorem witness_CharactersHeard :
    ((polling []).works (turn (.poll 0) .poll) .listening ∧ (polling []).link.late = false ∧
      rxProgress ((polling []).link.rx ++ [0xA6]) = .incomplete ∧ rxProgress ((polling []).link.rx ++ [0xA7]) = .garbled ∧
      rxProgress ((pollHears (frameOf 0x0C [])).link.rx ++ [lastOf (frameOf 0x0C [])]) = .frame ∧
      { (polling []).link with late := true }.late = true) ∧
    (run.ctrl.state = .running ∧ run.link.phase = .idle) ∧
    (((atPhase run (turn (.poll 0) .poll) .retryGuard []).setCtrl .suspending).ctrl.state = .suspending ∧
      ((atPhase run (turn (.poll 0) .poll) .retryGuard []).setCtrl .suspending).link.turn ≠ none) ∧
    (atPhase run (turn (.poll 0) .poll) .sending []).link.phase = .sending ∧
    ((inState .suspending).ctrl.state = .suspending ∧ (inState .suspending).link.turn = none) ∧
    (State.reset.ctrl.state ≠ .running ∧ State.reset.ctrl.state ≠ .suspending) := by
  unfold State.works; decide +kernel

/-- R4, Table 1-3: the characters of a NONE from station 1, its CHECK computed by hand. -/
theorem test_station_frame : frameOf 0x0C [] = [0xA6, 0x81, 0x0C, 0x00, 0x85, 0x9B] := by decide +kernel

/-- The turn of a poll of station 1, or of its confirm POLL, in try `n` of three. -/
def pollTurn (confirm : Bool) (n : Nat) : Turn :=
  { turn (if confirm then .confirm 0 else .poll 0) .poll with tries := n }

/-- That turn listens, heard so far `rx`. -/
def hearing (confirm : Bool) (n : Nat) (rx : List Byte) : State :=
  { atPhase run (pollTurn confirm n) .listening rx with
    post := { run.post with unsolCredits := 1 }, res := { run.res with latched := some 0, reserved := true, step := .confirm } }

/-- The last character of a frame of station 1 with `control` and `p` arrives. -/
def pollAnswered (confirm : Bool) (control : Byte) (p : List Byte) : Prop :=
  let s := hearing confirm 1 (frameOf control p).dropLast
  s.works (pollTurn confirm 1) .listening ∧ s.link.late = false ∧
  rxProgress (s.link.rx ++ [lastOf (frameOf control p)]) = .frame ∧
  RxFrame.ofChars (frameOf control p) = RxFrame.ofChars (s.link.rx ++ [lastOf (frameOf control p)]) ∧
  (RxFrame.ofChars (frameOf control p)).station = some 0 ∧ (s.stn 0).state = .up ∧ s.noneHeld ∧
  ∀ i ∈ s.list 0, (s.slot i).unknown = false

/-- On the last try: the limits, a framing error, a faulty character and a frame of another station; then a NONE, a REPORT of 1 and of
48 bytes, and the REPORT ends that do not count: 49 bytes, the other M, FRESH. -/
theorem witness_PollIsAnswered :
    (∀ confirm, (pollTurn confirm 3).allowed ≤ (pollTurn confirm 3).tries ∧
      (hearing confirm 3 []).works (pollTurn confirm 3) .listening ∧
      (hearing confirm 3 []).failsTry 0 .startLimitExpiry ∧ (hearing confirm 3 [0xA6]).failsTry 0 .gapLimitExpiry ∧
      (hearing confirm 3 []).failsTry 0 (.garbledReception .framingError) ∧
      (hearing confirm 3 []).failsTry 0 (.garbledReception (.character 0)) ∧
      (hearing confirm 3 (frameFrom 0x82 0x0C []).dropLast).failsTry 0 (.frameReceived (lastOf (frameFrom 0x82 0x0C [])))) ∧
    (∀ confirm, pollAnswered confirm 0x0C [] ∧ pollAnswered confirm 0x0B [0x11] ∧ pollAnswered confirm 0x0B (zeros 48) ∧
      pollAnswered confirm 0x0B (zeros 49) ∧ pollAnswered confirm 0x1B [0x11] ∧ pollAnswered confirm 0x2B [0x11]) ∧
    ((RxFrame.ofChars (frameOf 0x0C [])).kind = 0xC ∧ (RxFrame.ofChars (frameOf 0x0C [])).payload = [] ∧
      (RxFrame.ofChars (frameOf 0x0B [0x11])).kind = 0xB ∧ (RxFrame.ofChars (frameOf 0x0B [0x11])).payload.length = 1 ∧
      (RxFrame.ofChars (frameOf 0x0B (zeros 48))).payload.length = 48 ∧
      (RxFrame.ofChars (frameOf 0x1B [0x11])).m ≠ (pollTurn true 1).image.m ∧ (RxFrame.ofChars (frameOf 0x2B [0x11])).fresh = true) := by
  refine ⟨fun confirm => ⟨?_, ?_, .inl ⟨rfl, rfl⟩, .inr (.inl ⟨rfl, by simp [hearing, atPhase]⟩),
    .inr (.inr ⟨rfl, .inl rfl⟩), .inr (.inr ⟨rfl, .inr (.inl ⟨_, rfl, by cases confirm <;> decide +kernel⟩)⟩),
    .inr (.inr ⟨rfl, .inr (.inr ⟨_, rfl, by cases confirm <;> decide +kernel, by cases confirm <;> decide +kernel⟩)⟩)⟩,
    fun confirm => ?_, by decide +kernel⟩
  · cases confirm <;> decide
  · cases confirm <;> exact ⟨.inl rfl, rfl, rfl⟩
  · cases confirm <;> and_intros <;> first | decide +kernel | (unfold State.noneHeld; decide +kernel)

/-- The exchange `x` in slot 0 is in turn with a frame of kind `k` to station 1 in state `st`, heard so far `rx`. -/
def answering (x : Slot) (k : MKind) (st : StState) (rx : List Byte) : State :=
  atPhase (((run.setStn 0 { stn0 with state := st }).setSlot 0 x).setList 0 [0]) (turn (.exchange 0 0) k) .listening rx

/-- On that turn the last character of a frame with `control` and `p` arrives. -/
def hearsAnswer (x : Slot) (k : MKind) (st : StState) (control : Byte) (p : List Byte) : Prop :=
  let s := answering x k st (frameOf control p).dropLast
  s.hears (turn (.exchange 0 0) k) 0 0 (lastOf (frameOf control p)) (RxFrame.ofChars (frameOf control p)) ∧ s.alone 0

/-- A SEND with a block held, the last one or not, and `n` BUSY answers so far. -/
def heldSend (last : Bool) (n : Nat) : Slot :=
  { slotOf .send with held := some { block with form := { block.form with last := last } }, busy := n }

theorem witness_SendTurnIsAnswered :
    hearsAnswer (heldSend false 0) .write .up 0x09 [] ∧ hearsAnswer (heldSend true 0) .write .up 0x09 [] ∧
    hearsAnswer (heldSend false 14) .write .up 0x0A [1] ∧ hearsAnswer (heldSend false 15) .write .up 0x0A [1] ∧
    hearsAnswer (heldSend false 0) .write .up 0x0A [2] ∧ hearsAnswer (heldSend false 0) .write .up 0x0A [3] ∧
    (RxFrame.ofChars (frameOf 0x09 [])).kind = 0x9 ∧ (RxFrame.ofChars (frameOf 0x0A [3])).payload = [3#8] ∧
    ((answering (heldSend false 0) .write .up []).ctrl.state = .running ∧ (answering (heldSend false 0) .write .up []).xfer 0 = none ∧
      ∀ b, b ≠ 0 → 0 ∉ (answering (heldSend false 0) .write .up []).list b) := by
  and_intros <;> first | decide +kernel | (unfold State.noneHeld; decide +kernel)

/-- A FETCH of 8 bytes with `n` bytes moved in `b` frames. -/
def fetched (n b : Nat) : Slot := { slotOf .fetch with bytes := n, blocks := b }

/-- Frames that overrun, end with LAST, fill the buffer, are the 512th, and leave more to do; a BUSY below the limit and at it; the
refusing NAKs. -/
theorem witness_FetchTurnIsAnswered :
    (hearsAnswer (fetched 7 0) .read .up 0x0D [1, 2] ∧ hearsAnswer (fetched 0 0) .read .up 0x4D [1, 2] ∧
      (RxFrame.ofChars (frameOf 0x4D [1, 2])).last = true ∧ hearsAnswer (fetched 6 0) .read .up 0x0D [1, 2] ∧
      hearsAnswer (fetched 0 511) .read .up 0x0D [1] ∧ hearsAnswer (fetched 0 510) .read .up 0x0D [] ∧
      (RxFrame.ofChars (frameOf 0x0D [1, 2])).kind = 0xD ∧ (RxFrame.ofChars (frameOf 0x0D [1, 2])).payload.length ≤ 120) ∧
    hearsAnswer { fetched 0 0 with busy := 14 } .read .up 0x0A [1] ∧ hearsAnswer { fetched 0 0 with busy := 15 } .read .up 0x0A [1] ∧
    hearsAnswer (fetched 0 0) .read .up 0x0A [2] ∧ hearsAnswer (fetched 0 0) .read .up 0x0A [3] ∧
    (answering (fetched 0 0) .read .up []).xfer 0 = none := by
  and_intros <;> first | decide +kernel | (unfold State.noneHeld; decide +kernel)

theorem witness_QueryProbeClearAreAnswered :
    (hearsAnswer (slotOf .query) .poll .up 0x0B (zeros 8) ∧ hearsAnswer (slotOf .query) .poll .up 0x0B (zeros 9) ∧
      hearsAnswer (slotOf .query) .poll .up 0x0C []) ∧
    (hearsAnswer (slotOf .probe) .probe .up 0x08 [1, 2, 3, 8] ∧ hearsAnswer (slotOf .probe) .probe .down 0x08 [1, 2, 3, 120] ∧
      byteAt (RxFrame.ofChars (frameOf 0x08 [1, 2, 3, 8])).payload 3 = 8 ∧
      byteAt (RxFrame.ofChars (frameOf 0x08 [1, 2, 3, 120])).payload 3 = 120) ∧
    hearsAnswer (slotOf .clear) .clear .up 0x09 [] ∧
    ((clearing (frameOf 0x09 []).dropLast).works (turn (.linkClear 0) .clear) .listening ∧
      (clearing (frameOf 0x09 []).dropLast).link.late = false ∧
      rxProgress ((clearing (frameOf 0x09 []).dropLast).link.rx ++ [lastOf (frameOf 0x09 [])]) = .frame ∧
      (clearing (frameOf 0x09 []).dropLast).noneHeld ∧ ((clearing []).stn 0).state = .up ∧
      ((atPhase joining (turn (.linkClear 0) .clear) .listening []).stn 0).state = .joining) ∧
    ((probing (frameOf 0x08 [1, 2, 3, 8]).dropLast).works (turn (.recovery 0) .probe) .listening ∧
      rxProgress ((probing (frameOf 0x08 [1, 2, 3, 8]).dropLast).link.rx ++ [lastOf (frameOf 0x08 [1, 2, 3, 8])]) = .frame ∧
      ((probing []).stn 0).state = .down) := by
  and_intros <;> first | decide +kernel | (unfold State.noneHeld; decide +kernel)

/-- The WRITE of `sending` in its last try. -/
def lastTry : State :=
  { sending [] with link := { (sending []).link with turn := some { turn (.exchange 0 0) .write with tries := 3 } } }

/-- An exchange turn of station 1 in its last try, `rx` heard. -/
def lastTryOf (x : Slot) (k : MKind) (st : StState) (rx : List Byte) : State :=
  let t := answering x k st rx
  { t with link := { t.link with turn := some { turn (.exchange 0 0) k with tries := 3 } } }

/-- What LastTryFailsTheExchange asks of a state before the event that ends the turn. -/
def endsBadly (s : State) (k : MKind) (kind : ExKind) : Prop :=
  s.works { turn (.exchange 0 0) k with tries := 3 } .listening ∧ k ≠ .safe ∧ k ≠ .call ∧ (s.slot 0).kind = some kind ∧
  kind.usesLine = true ∧ (s.slot 0).station = some 0 ∧ 0 ∉ s.store.followers ∧ s.noneHeld ∧
  (∀ j ∈ s.list 0, (s.slot j).unknown = false) ∧ (s.stn 0).state ≠ .joining ∧
  ((s.stn 0).state = .up → (s.stn 0).failures + 1 < (s.stn 0).downLimit)

/-- On such a turn, of the SEND `x`, the last character of a frame of station 1 arrives. -/
def framed (x : Slot) (st : StState) (control : Byte) (p : List Byte) : Prop :=
  let s := lastTryOf x .write st (frameOf control p).dropLast
  endsBadly s .write .send ∧ s.link.late = false ∧ rxProgress (s.link.rx ++ [lastOf (frameOf control p)]) = .frame ∧
  (RxFrame.ofChars (s.link.rx ++ [lastOf (frameOf control p)])).station = some 0

/-- The last try in vain: silence on each kind, also of a DOWN station's PROBE, a gap, a framing error, another station's frame. -/
theorem witness_LastTryFailsTheExchange :
    (∀ p ∈ [(ExKind.send, MKind.write), (.fetch, .read), (.query, .poll), (.probe, .probe), (.clear, .clear)],
      endsBadly (lastTryOf (slotOf p.1) p.2 .up []) p.2 p.1) ∧
    endsBadly (lastTryOf (slotOf .probe) .probe .down []) .probe .probe ∧
    (lastTryOf (slotOf .probe) .probe .down []).failsTry 0 .startLimitExpiry ∧
    (lastTryOf (slotOf .clear) .clear .up [0xA6]).failsTry 0 .gapLimitExpiry ∧
    (lastTryOf (slotOf .send) .write .up [0xA6]).failsTry 0 (.garbledReception .framingError) ∧
    (lastTryOf (slotOf .send) .write .up (frameFrom 0x82 0x09 []).dropLast).failsTry 0
      (.frameReceived (lastOf (frameFrom 0x82 0x09 []))) := by
  refine ⟨?_, ?_, Or.inl ⟨rfl, rfl⟩, Or.inr (Or.inl ⟨rfl, by decide⟩), Or.inr (Or.inr ⟨rfl, Or.inl rfl⟩),
    Or.inr (Or.inr ⟨rfl, Or.inr (Or.inr ⟨_, rfl, by decide +kernel, by decide +kernel⟩)⟩)⟩ <;>
    (unfold endsBadly State.works State.noneHeld; decide +kernel)

/-- Frames that end a WRITE in vain: a NONE, an ACK with a payload, an ACK with FRESH, one with the other M; a result fixed early. -/
theorem witness_LastTryFailsTheExchange_frame :
    framed (heldSend false 0) .up 0x0C [] ∧ framed (heldSend false 0) .up 0x09 [1] ∧ framed (heldSend false 0) .up 0x29 [] ∧
    framed (heldSend false 0) .up 0x19 [] ∧ framed { heldSend false 0 with result := some .stationFenced } .fenced 0x0C [] ∧
    ¬(RxFrame.ofChars (frameOf 0x0C [])).answers .write ∧ ¬(RxFrame.ofChars (frameOf 0x09 [1])).answers .write ∧
    ((RxFrame.ofChars (frameOf 0x29 [])).answers .write ∧ (RxFrame.ofChars (frameOf 0x29 [])).fresh = true) ∧
    ((RxFrame.ofChars (frameOf 0x19 [])).answers .write ∧ (RxFrame.ofChars (frameOf 0x19 [])).fresh = false ∧
      (RxFrame.ofChars (frameOf 0x19 [])).m ≠ (turn (.exchange 0 0) .write).image.m) := by
  refine ⟨?_, ?_, ?_, ?_, ?_, by unfold RxFrame.answers; decide +kernel, by unfold RxFrame.answers; decide +kernel,
    ⟨Or.inr (Or.inl (by decide +kernel)), by decide +kernel⟩, Or.inr (Or.inl (by decide +kernel)), by decide +kernel, by decide +kernel⟩ <;>
    (unfold framed endsBadly; and_intros <;> first | decide +kernel | (unfold State.noneHeld; decide +kernel))

/-- Two exchanges in station 1's list, a SEND and a PROBE flagged outcome-unknown; the station in state `st` with `f` failures and RESYNC. -/
def waiting (st : StState) (f : Nat) : State :=
  (((run.setSlot 0 (slotOf .send)).setSlot 1 { slotOf .probe with unknown := true }).setList 0 [0, 1]).setStn 0
    { stn0 with state := st, failures := f, resync := true }

theorem waiting_listSound (st : StState) (f : Nat) : (waiting st f).listSound 0 := by
  have hl : (waiting st f).list 0 = [0, 1] := by cases st <;> rfl
  refine ⟨by rw [hl]; decide, fun i hi => ?_⟩
  rw [hl] at hi
  simp only [List.mem_cons, List.not_mem_nil, or_false] at hi
  rcases hi with rfl | rfl
  · exact ⟨rfl, .send, rfl, rfl⟩
  · exact ⟨rfl, .probe, rfl, rfl⟩

/-- `waiting` with a turn in its last try. -/
def waitingTurn (p : Purpose) (k : MKind) (st : StState) (f : Nat) (rx : List Byte) : State :=
  atPhase (waiting st f) { turn p k with tries := 3 } .listening rx

/-- An IDENT with FRESH and the other M, on a PROBE exchange and on a recovery probe; an ACK on a link CLEAR and a NONE on a poll turn
while a flagged PROBE stands in the list. -/
theorem witness_QueryProbeClearAreAnswered_fresh :
    (∀ st ∈ [StState.up, .joining, .down, .fenced, .vacant],
      let s := answering (slotOf .probe) .probe st (frameOf 0x38 [1, 2, 3, 8]).dropLast
      let r := waitingTurn (.recovery 0) .probe st 0 (frameOf 0x38 [1, 2, 3, 8]).dropLast
      s.works (turn (.exchange 0 0) .probe) .listening ∧ s.link.late = false ∧ (∀ q, (s.ring q).held = false) ∧
        (s.stn 0).state = st ∧ (s.slot 0).kind = some .probe ∧ (s.slot 0).station = some 0 ∧ 0 ∉ s.store.followers ∧
        (s.list 0).erase 0 = [] ∧ r.works { turn (.recovery 0) .probe with tries := 3 } .listening ∧ r.link.late = false) ∧
    (rxProgress ((frameOf 0x38 [1, 2, 3, 8]).dropLast ++ [lastOf (frameOf 0x38 [1, 2, 3, 8])]) = .frame ∧
      (RxFrame.ofChars (frameOf 0x38 [1, 2, 3, 8])).station = some 0 ∧ (RxFrame.ofChars (frameOf 0x38 [1, 2, 3, 8])).fresh = true ∧
      (RxFrame.ofChars (frameOf 0x38 [1, 2, 3, 8])).kind = 0x8 ∧
      byteAt (RxFrame.ofChars (frameOf 0x38 [1, 2, 3, 8])).payload 3 = 8) ∧
    (let s := waitingTurn (.linkClear 0) .clear .up 0 (frameOf 0x09 []).dropLast
     s.works { turn (.linkClear 0) .clear with tries := 3 } .listening ∧ s.link.late = false ∧
       rxProgress (s.link.rx ++ [lastOf (frameOf 0x09 [])]) = .frame ∧ (s.list 0).any (fun j => (s.slot j).unknown) = true) ∧
    (let s := waitingTurn (.poll 0) .poll .up 0 (frameOf 0x0C []).dropLast
     s.works { turn (.poll 0) .poll with tries := 3 } .listening ∧ s.link.late = false ∧
       rxProgress (s.link.rx ++ [lastOf (frameOf 0x0C [])]) = .frame ∧ (s.list 0).any (fun j => (s.slot j).unknown) = true) := by
  unfold State.works; and_intros <;> decide +kernel

/-- A link CLEAR, a recovery probe, a poll turn and a confirm POLL whose last try is SILENT; a link CLEAR answered ACK with FRESH, and
NONE; the failures below D and at it, and a join CLEAR. -/
theorem witness_LastTryFailsTheExchange_other :
    (∀ p ∈ [(Purpose.linkClear 0, MKind.clear, StState.up), (.linkClear 0, .clear, .joining), (.recovery 0, .probe, .down),
      (.poll 0, .poll, .up), (.confirm 0, .poll, .up)], let s := waitingTurn p.1 p.2.1 p.2.2 0 []
      s.works { turn p.1 p.2.1 with tries := 3 } .listening ∧ p.1.station = some 0 ∧ p.2.1 ≠ .safe ∧ p.2.1 ≠ .call ∧
        s.link.rx = [] ∧ (∀ r, (s.ring r).held = false) ∧ (s.list 0).any (fun j => (s.slot j).unknown) = true) ∧
    ((waitingTurn (.linkClear 0) .clear .up 0 []).stn 0).failures + 1 < ((waitingTurn (.linkClear 0) .clear .up 0 []).stn 0).downLimit ∧
    ((waitingTurn (.linkClear 0) .clear .up 2 []).stn 0).failsDown .clear .failed ∧
    ((waitingTurn (.linkClear 0) .clear .joining 0 []).stn 0).failsDown .clear .unexpected ∧
    (rxProgress ((frameOf 0x29 []).dropLast ++ [lastOf (frameOf 0x29 [])]) = .frame ∧
      (RxFrame.ofChars (frameOf 0x29 [])).station = some 0 ∧ (RxFrame.ofChars (frameOf 0x29 [])).answers .clear ∧
      (RxFrame.ofChars (frameOf 0x29 [])).fresh = true) ∧
    ¬(RxFrame.ofChars (frameOf 0x0C [])).answers .clear := by
  refine ⟨?_, by decide +kernel, ⟨Or.inl rfl, Or.inl ⟨rfl, by decide +kernel⟩⟩, ⟨Or.inr rfl, Or.inr ⟨rfl, rfl⟩⟩,
    ⟨by decide +kernel, by decide +kernel, Or.inr (Or.inl (by decide +kernel)), by decide +kernel⟩,
    by unfold RxFrame.answers; decide +kernel⟩
  unfold State.works; decide +kernel

/-- What LastTryFailsTheExchange asks of that state where the station goes DOWN. -/
def endsAtD : Prop :=
  let s := waitingTurn (.exchange 0 0) .write .up 2 []
  s.works { turn (.exchange 0 0) .write with tries := 3 } .listening ∧ s.link.rx = [] ∧ s.noneHeld ∧ (s.slot 0).kind = some .send ∧
  (s.slot 0).station = some 0 ∧ s.store.followers = [] ∧ (s.stn 0).failsDown .write .failed

/-- The last try of the SEND at the head brings the failures to D, while a PROBE waits behind it. -/
theorem witness_LastTryFailsTheExchange_down :
    (waitingTurn (.exchange 0 0) .write .up 2 []).listSound 0 ∧ endsAtD := by
  refine ⟨waiting_listSound .up 2, ?_⟩
  unfold endsAtD State.works State.noneHeld Station.failsDown; decide +kernel

theorem withSlot_listSound : (withSlot .send).listSound 0 := by
  refine ⟨by decide +kernel, fun i hi => ?_⟩
  have hl : (withSlot .send).list 0 = [0] := by decide +kernel
  rw [hl, List.mem_singleton] at hi
  subst hi
  exact ⟨by decide +kernel, .send, by decide +kernel, rfl⟩

/-- `withSlot .send` with station 1 in a state and with `f` failures. -/
def stationIn (st : StState) (f : Nat) : State := (withSlot .send).setStn 0 { stn0 with state := st, failures := f }

theorem stationIn_listSound (st : StState) (f : Nat) : (stationIn st f).listSound 0 := withSlot_listSound

theorem witness_StationOutcomes :
    (((stationIn .up 1).stn 0).state = .up ∧ ((stationIn .up 1).stn 0).failures + 1 < ((stationIn .up 1).stn 0).downLimit) ∧
    (((stationIn .up 2).stn 0).state = .up ∧ ((stationIn .up 2).stn 0).downLimit ≤ ((stationIn .up 2).stn 0).failures + 1 ∧
      (stationIn .up 2).listSound 0) ∧
    (((stationIn .joining 0).stn 0).state = .joining ∧ (stationIn .joining 0).listSound 0) ∧
    ((stationIn .down 0).stn 0).state = .down ∧ ((stationIn .fenced 0).stn 0).state = .fenced ∧
    MKind.poll.sequenced = true := by
  refine ⟨by decide +kernel, ⟨by decide +kernel, by decide +kernel, stationIn_listSound _ _⟩,
    ⟨by decide +kernel, stationIn_listSound _ _⟩, by decide +kernel⟩

/-- The frames that station 1 may send on a POLL: right, FRESH, with the other M; and one that the POLL does not allow. -/
def noneFrame (control : Byte) : RxFrame := { address := 0x81, control := control, payload := [] }

theorem witness_FramesAreJudgedInOrder :
    (noneFrame 0x0C).station = some 0 ∧ (noneFrame 0x0C).station ≠ some 1 ∧ (noneFrame 0x0F).answer = none ∧
    (noneFrame 0x0C).answer = some .none ∧ MKind.poll.allows .none = true ∧ MKind.write.allows .none = false ∧
    (noneFrame 0x2C).fresh = true ∧ MKind.poll ≠ .probe ∧ (noneFrame 0x1C).m ≠ false ∧ MKind.poll.sequenced = true ∧
    (noneFrame 0x0C).m = false ∧ (noneFrame 0x0C).fresh = false ∧
    RxFrame.answer { address := 0x81, control := 0x0A, payload := [1] } = some (.nak .busy) := by decide +kernel

/-- In a CALL step over `r` with the ranges `stack` waiting, every end of the listen period: silence, a gap, a framing error, a
faulty character, a NONE, an ATTN from the range. -/
def callEnds (stack : List SearchRange) (r : SearchRange) : Prop :=
  (calling stack r []).works (turn (.call r.lo r.hi) .call) .listening ∧ (calling stack r []).res.step = .call r ∧
  (calling stack r []).link.rx = [] ∧ (calling stack r [0xA6]).link.rx ≠ [] ∧ (calling stack r []).link.late = false ∧
  rxProgress ((calling stack r []).link.rx ++ [0x00]) = .garbled ∧
  rxProgress ((calling stack r (frameOf 0x0C []).dropLast).link.rx ++ [lastOf (frameOf 0x0C [])]) = .frame ∧
  (RxFrame.ofChars (frameOf 0x0C [])).kind ≠ 0xE ∧
  rxProgress ((calling stack r (frameOf 0x0E []).dropLast).link.rx ++ [lastOf (frameOf 0x0E [])]) = .frame ∧
  (RxFrame.ofChars (frameOf 0x0E [])).kind = 0xE ∧ (RxFrame.ofChars (frameOf 0x0E [])).payload = [] ∧
  (RxFrame.ofChars (frameOf 0x0E [])).station = some 0

/-- Ranges of many addresses and of one, called for the first and the second time, over stacks of 0, 6, 7 and 8 ranges; the address at
an end of the range and outside it; a station that is attention-enabled and one that is not. -/
theorem witness_CallStepIsJudged :
    callEnds [] ⟨1, 40, false⟩ ∧ callEnds [] ⟨1, 1, false⟩ ∧ callEnds [] ⟨1, 1, true⟩ ∧ callEnds [] ⟨2, 40, false⟩ ∧
    callEnds (List.replicate 6 ⟨1, 40, false⟩) ⟨1, 2, false⟩ ∧ callEnds (List.replicate 7 ⟨1, 40, false⟩) ⟨1, 2, false⟩ ∧
    callEnds (List.replicate 8 ⟨1, 40, false⟩) ⟨1, 2, false⟩ ∧
    (((run.stn 0).state = .up ∧ (run.stn 0).attnEnabled = true) ∧ (run.stn 1).state ≠ .up ∧
      ((run.setStn 0 { stn0 with attnEnabled := false }).stn 0).attnEnabled = false) := by
  and_intros <;> decide +kernel

/-! ### Blocks, rings and records -/

/-- `s` with a transfer of slot 0 in flight. -/
def transferring (s : State) (x : Transfer) : State := s.setXfer 0 (some x)

theorem witness_BlockReadCompletes :
    let x := Transfer.read block.form 0
    let done := (withSlot .send).setSlot 0 { slotOf .send with life := .done, result := some .cancelled }
    ((transferring (withSlot .send) x).xfer 0 = some x ∧ block.data.length = block.form.size ∧
      (transferring (withSlot .send) x).ctrl.state = .running ∧ (∀ r, ((transferring (withSlot .send) x).ring r).held = false) ∧
      ((transferring (withSlot .send) x).slot 0).life = .active ∧
      ((transferring (withSlot .send) x).slot 0).kind = some .send ∧
      ((transferring (withSlot .send) x).slot 0).station = some 0) ∧
    ((transferring done x).xfer 0 = some x ∧ ((transferring done x).slot 0).life ≠ .active) ∧
    ((transferring (inState .suspending) x).xfer 0 = some x ∧ (transferring (inState .suspending) x).ctrl.state = .suspending) ∧
    ((transferring (inState .halted) x).xfer 0 = some x ∧ (transferring (inState .halted) x).ctrl.state = .halted) := by
  decide +kernel

theorem witness_BlockWriteCompletes :
    let x := Transfer.write 0 [1, 2]
    let ended := fun st => (withSlot .fetch).setSlot 0 { slotOf .fetch with life := .done, result := some st }
    let halted := (withSlot .query).setCtrl .halted
    ((transferring (withSlot .fetch) x).xfer 0 = some x ∧ ((transferring (withSlot .fetch) x).slot 0).kind = some .fetch ∧
      (transferring (withSlot .fetch) x).ctrl.state = .running ∧ (∀ r, ((transferring (withSlot .fetch) x).ring r).held = false) ∧
      ((transferring (withSlot .fetch) x).slot 0).life = .active ∧
      ((transferring (withSlot .fetch) x).slot 0).station = some 0) ∧
    ((transferring (withSlot .query) x).xfer 0 = some x ∧ ((transferring (withSlot .query) x).slot 0).kind = some .query) ∧
    ((transferring (ended .ok) x).xfer 0 = some x ∧ ((transferring (ended .ok) x).slot 0).life = .done ∧
      ((transferring (ended .ok) x).slot 0).result = some .ok) ∧
    ((transferring (ended .protocol) x).slot 0).result = some .protocol ∧
    ((transferring halted x).xfer 0 = some x ∧ ((transferring halted x).slot 0).kind = some .query ∧
      (transferring halted x).ctrl.state = .halted) := by decide +kernel

/-- `run` with ring 0 of a priority, not empty. -/
def offering (p : Priority) : State := run.setRing 0 { ring0 with tail := 1, prio := p }

theorem offering_eligible (p : Priority) (r : RingId) :
    (((offering p).ring r).enabled = true ∧ ((offering p).ring r).head ≠ ((offering p).ring r).tail ∧
      ((offering p).ring r).held = false ∧ ((offering p).ring r).faulted = false ∧ ((offering p).ring r).staged = none) ↔
    r = 0 := by
  revert r; cases p <;> decide +kernel

theorem witness_EntryReadChoosesARing :
    ((offering .urgent).ctrl.state = .running ∧ (offering .urgent).port.entry = none ∧
      (offering .urgent).post.unconsumed + ((offering .urgent).post.exCredits + (offering .urgent).post.unsolCredits
        + (offering .urgent).post.writeCredit) < (offering .urgent).post.size ∧
      ((offering .urgent).ring 0).prio = .urgent) ∧
    ((offering .normal).ctrl.state = .running ∧ (offering .normal).port.entry = none ∧
      ((offering .normal).ring 0).prio = .normal) ∧
    (∀ r, (run.ring r).head = (run.ring r).tail) := by decide +kernel

/-- A 32-byte submission entry: kind, station, argument, length. -/
def entryBytes (kind station arg len : Byte) : List Byte := [kind, station, arg, 0, 7, 0, 0, 0] ++ zeros 8 ++ [len] ++ zeros 15

/-- `run` with the read of an entry of ring 0 in flight. -/
def fetching (s : State) : State :=
  { s with port := { s.port with entry := some { ring := 0, index := 0, addr := 0, discard := false } } }

theorem witness_EntriesAreChecked :
    ExKind.ofCode (Entry.ofBytes (entryBytes 1 1 0 0)).kind = some .send ∧ (run.ring 0).cls = .supervisory ∧
    1 ≤ (Entry.ofBytes (entryBytes 1 1 0 0)).station ∧ (Entry.ofBytes (entryBytes 1 40 0 0)).station ≤ 40 ∧
    ExKind.ofCode (Entry.ofBytes (entryBytes 10 1 4 0)).kind = some .cancel ∧ (run.ring 1).cls = .general ∧
    ExKind.ofCode (Entry.ofBytes (entryBytes 10 1 1 0)).kind = some .cancel ∧
    (Entry.ofBytes (entryBytes 10 1 1 0)).arg = (1 : RingId).val := by decide +kernel

/-- Ring 1 of `run` is GENERAL: its SEND and FETCH against a window that grants reads, and against a supervisory-only station. -/
theorem witness_EntriesAreChecked_steps :
    let e := Entry.ofBytes ([1, 1, 0, 0, 7, 0, 0, 0, 0, 0x10] ++ zeros 6 ++ [8] ++ zeros 15)
    let w : Window := { base := 4096, length := 4096, genRead := true, genWrite := false }
    let s : State := { run with fetch := { run.fetch with windows := [w] } }
    ExKind.ofCode e.kind = some .send ∧ (s.ring 1).cls = .general ∧ ExKind.send.supervisory = false ∧ e.station = (0 : StationId).val + 1 ∧
    s.refusal 1 e ≠ some .badLength ∧ (s.stn 0).superOnly = false ∧ w ∈ s.fetch.windows ∧ w.base ≤ e.buf ∧
    e.buf + e.len ≤ w.base + w.length ∧ run.fetch.windows = [] ∧
    ((s.setStn 0 { stn0 with superOnly := true }).stn 0).superOnly = true ∧
    (∀ st ∈ [StState.down, .fenced, .vacant], ((s.setStn 0 { stn0 with state := st }).stn 0).state = st) ∧
    ExKind.ofCode (Entry.ofBytes (entryBytes 11 0 0 0)).kind = some .barrier ∧ (entryBytes 1 1 0 8).length = 32 := by decide +kernel

/-- The new slot's hypotheses hold for an entry of kind `k` over slot 0. -/
theorem witness_AcceptedEntryIsPlaced :
    ((fetching run).ctrl.state = .running ∧
      (fetching run).port.entry = some { ring := 0, index := 0, addr := 0, discard := false } ∧
      (∀ r, ((fetching run).ring r).held = false) ∧ ((fetching run).slot 0).life = .free ∧
      (∀ a, 0 ∉ (fetching run).list a)) ∧
    ((entryBytes 1 1 0 8).length = 32 ∧ (fetching run).refusal 0 (Entry.ofBytes (entryBytes 1 1 0 8)) = none ∧
      ExKind.ofCode (Entry.ofBytes (entryBytes 1 1 0 8)).kind = some .send ∧ ExKind.send.usesLine = true ∧
      stationOfAddr (Entry.ofBytes (entryBytes 1 1 0 8)).station = some 0 ∧
      ((fetching run).list 0).length < ((fetching run).stn 0).depth) ∧
    ((fetching run).refusal 0 (Entry.ofBytes (entryBytes 6 0 1 0)) = none ∧
      ExKind.ofCode (Entry.ofBytes (entryBytes 6 0 1 0)).kind = some .safe) ∧
    ((fetching run).refusal 0 (Entry.ofBytes (entryBytes 11 0 0 0)) = none ∧
      ExKind.ofCode (Entry.ofBytes (entryBytes 11 0 0 0)).kind = some .barrier ∧
      (fetching run).barrier 0 = [] ∧ (fetching run).earlierUnposted 0 ((fetching run).ring 0).nextTake = false) := by
  decide +kernel

/-- The entry read that `fetching` has in flight. -/
def read0 : EntryRead := { ring := 0, index := 0, addr := 0, discard := false }

/-- The entry `bs` of kind `k` is admitted in `s`. -/
def admitted (s : State) (bs : List Byte) (k : ExKind) : Prop := (fetching s).admits read0 bs (Entry.ofBytes bs) k

/-- A STATION_SET of station 1 with a present field. -/
def setBytes (present : Byte) : List Byte :=
  [7, 1, 0, 0, 7, 0, 0, 0, present, 10, 2, 3, 4, 8, 1, 0] ++ zeros 16

/-- `sending` with every slot in use. -/
def fullTurn : State :=
  { sending [] with store := { (sending []).store with slots := (Vector.replicate 64 { slotOf .probe with tag := 9 }).set 0 (heldSend false 0) } }

/-- UNFENCE, and a STATION_SET with present yes, while the station's turn is in progress and no slot is FREE. -/
theorem witness_OrdersActAtTake_full :
    admitted fullTurn (entryBytes 9 1 0 0) .unfence ∧ admitted fullTurn (setBytes 1) .stationSet ∧
      ((fetching fullTurn).turnSlotOf 0).isSome = true ∧ (∀ q, ((fetching fullTurn).slot q).life ≠ .free) ∧
      (Entry.ofBytes (setBytes 1)).present = 1 := by
  and_intros <;> first | decide +kernel | (unfold State.noneHeld; decide +kernel)

theorem witness_OrdersActAtTake_take :
    (admitted run (entryBytes 8 1 0 0) .fence ∧ admitted run (entryBytes 9 1 0 0) .unfence ∧
      admitted run (setBytes 1) .stationSet ∧ admitted run (setBytes 0) .stationSet ∧
      stationOfAddr (Entry.ofBytes (entryBytes 8 1 0 0)).station = some 0 ∧ (fetching run).turnSlotOf 0 = none) ∧
    (admitted (sending []) (entryBytes 8 1 0 0) .fence ∧ admitted (sending []) (setBytes 0) .stationSet ∧
      ((fetching (sending [])).turnSlotOf 0).isSome = true ∧ (fetching (sending [])).lowestFree 1 ∧
      1 ∉ (fetching (sending [])).list 0 ∧ (Entry.ofBytes (setBytes 0)).present ≠ 1 ∧
      ((fetching (sending [])).stn 0).state ≠ .vacant) := by
  and_intros <;> first | decide +kernel | (unfold State.noneHeld; decide +kernel)

/-- A CANCEL of tag 0 of ring 0, and states in which its target is nowhere, in its list, outcome-unknown, a SAFE, a barrier with none, a
waiting and a free one behind it, in turn, in turn with no FREE slot, and in turn with a CANCEL. -/
def cancelBytes : List Byte := [10, 1, 0, 0, 7, 0, 0, 0] ++ zeros 24

def barriers (n : Nat) (take : Word) : State :=
  let t := (run.setSlot 0 { slotOf .barrier with station := none }).setSlot 1
    { slotOf .barrier with station := none, tag := 1, take := take }
  t.setBarrier 0 (if n = 1 then [0] else [0, 1])

theorem witness_CancelIsTaken_take :
    (admitted run cancelBytes .cancel ∧ ringOfNat (Entry.ofBytes cancelBytes).arg = some 0 ∧
      ∀ i, ¬(fetching run).cancellable 0 0 i) ∧
    (admitted (withSlot .send) cancelBytes .cancel ∧ (fetching (withSlot .send)).cancellable 0 0 0 ∧
      (∀ q, q < 0 → ¬(fetching (withSlot .send)).cancellable 0 0 q) ∧ (withSlot .send).turnSlot ≠ some 0 ∧
      0 ∉ ((withSlot .send).barrier 0).erase 0 ∧ ((withSlot .send).slot 0).station = some 0) ∧
    (admitted (withSafe 2) cancelBytes .cancel ∧ (fetching (withSafe 2)).cancellable 0 0 0 ∧ ((withSafe 2).slot 0).station = none) ∧
    (admitted (barriers 1 0) cancelBytes .cancel ∧ (fetching (barriers 1 0)).cancellable 0 0 0 ∧
      ((barriers 1 0).barrier 0).erase 0 = []) ∧
    (admitted (barriers 2 1) cancelBytes .cancel ∧ ((barriers 2 1).barrier 0).erase 0 = [1] ∧
      ((barriers 2 1).slot 1).kind = some .barrier ∧ (barriers 2 1).earlierUnposted 0 1 = true ∧
      (barriers 2 0).earlierUnposted 0 0 = false) := by
  and_intros <;> first | decide +kernel | (unfold State.noneHeld; decide +kernel) | (unfold State.cancellable; decide +kernel)

theorem witness_CancelIsTaken_turn :
    (admitted (sending []) cancelBytes .cancel ∧ (fetching (sending [])).cancellable 0 0 0 ∧
      (fetching (sending [])).turnSlot = some 0 ∧ ((fetching (sending [])).slot 0).cancelBy = none ∧
      (fetching (sending [])).lowestFree 1) ∧
    (admitted fullTurn cancelBytes .cancel ∧ (fetching fullTurn).cancellable 0 0 0 ∧ (fetching fullTurn).turnSlot = some 0 ∧
      ((fetching fullTurn).slot 0).cancelBy = none ∧ ∀ q, ((fetching fullTurn).slot q).life ≠ .free) ∧
    (admitted (cancelling (sending [])) cancelBytes .cancel ∧ (fetching (cancelling (sending []))).cancellable 0 0 0 ∧
      ((fetching (cancelling (sending []))).slot 0).cancelBy ≠ none) := by
  and_intros <;> first | decide +kernel | (unfold State.noneHeld; decide +kernel)

/-- The WRITE's turn ends with an ACK while a CANCEL follows it, its block the last or not. -/
theorem witness_CancelIsTaken_end :
    ∀ last, let s := cancelling (answering (heldSend last 0) .write .up (frameOf 0x09 []).dropLast)
    s.hears (turn (.exchange 0 0) .write) 0 0 (lastOf (frameOf 0x09 [])) (RxFrame.ofChars (frameOf 0x09 [])) ∧
      (s.slot 0).cancelBy = some 1 ∧ s.store.followers = [1] ∧ 1 ∉ s.list 0 ∧ (s.slot 1).kind = some .cancel := by
  unfold State.hears State.works State.noneHeld; dsimp only; decide +kernel

theorem witness_OrdersActAtTake :
    (((stationIn .up 0).stn 0).state = .up ∧ (stationIn .up 0).listSound 0) ∧
    (((stationIn .fenced 0).stn 0).state = .fenced ∧ (stationIn .fenced 0).listSound 0) ∧
    (((stationIn .vacant 0).stn 0).state = .vacant ∧ (stationIn .vacant 0).listSound 0) ∧
    (stationIn .vacant 0).turnSlot = none ∧ (sending []).turnSlotOf 0 = some 0 :=
  ⟨⟨by decide +kernel, stationIn_listSound _ _⟩, ⟨by decide +kernel, stationIn_listSound _ _⟩,
    ⟨by decide +kernel, stationIn_listSound _ _⟩, by decide +kernel⟩

/-- `run` with no FREE slot. -/
def fullPool : State := { run with store := { run.store with slots := Vector.replicate 64 (slotOf .send) } }

theorem witness_EntryReadCompletes :
    let e : EntryRead := { ring := 0, index := 0, addr := 0, discard := false }
    ((fetching run).ctrl.state = .running ∧ (fetching run).port.entry = some e ∧ (entryBytes 1 1 0 0).length = 32 ∧
      (∀ r, ((fetching run).ring r).held = false) ∧
      (fetching run).refusal 0 (Entry.ofBytes (entryBytes 1 1 0 0)) = some .badLength) ∧
    ((fetching (inState .suspending)).port.entry = some e ∧ (entryBytes 1 1 0 8).length = 32 ∧
      (fetching (inState .suspending)).ctrl.state = .suspending) ∧
    ((fetching fullPool).port.entry = some e ∧ (fetching fullPool).ctrl.state = .running ∧
      (∀ r, ((fetching fullPool).ring r).held = false) ∧
      (fetching fullPool).refusal 0 (Entry.ofBytes (entryBytes 1 1 0 8)) = none ∧
      ExKind.ofCode (Entry.ofBytes (entryBytes 1 1 0 8)).kind = some .send ∧
      (∀ i, ((fetching fullPool).slot i).life ≠ .free)) ∧
    ({ run with port := { run.port with entry := some { e with discard := true } } }.port.entry =
      some { e with discard := true }) ∧
    ((fetching (inState .halted)).port.entry = some e ∧ (fetching (inState .halted)).ctrl.state = .halted) := by decide +kernel

/-- A FENCE, a vacating STATION_SET and a CANCEL that must follow the station's turn while no slot is FREE. -/
theorem witness_EntryReadCompletes_follower :
    (∀ bs ∈ [entryBytes 8 1 0 0, setBytes 0, cancelBytes], (fetching fullTurn).refusal 0 (Entry.ofBytes bs) = none ∧ bs.length = 32) ∧
    ((fetching fullTurn).turnSlotOf 0).isSome = true ∧ ((fetching fullTurn).stn 0).state ≠ .vacant ∧
    (Entry.ofBytes (setBytes 0)).present = 0 ∧ (∀ i, ((fetching fullTurn).slot i).life ≠ .free) ∧
    (∀ r, ((fetching fullTurn).ring r).held = false) ∧ ringOfNat (Entry.ofBytes cancelBytes).arg = some 0 ∧
    (fetching fullTurn).cancellable 0 (Entry.ofBytes cancelBytes).targetTag 0 ∧ (fetching fullTurn).turnSlot = some 0 ∧
    ((fetching fullTurn).slot 0).cancelBy = none := by
  unfold State.cancellable; decide +kernel

/-- `run` with slot 0 ended and first on the post list. -/
def posting : State :=
  let t := run.setSlot 0 { slotOf .send with life := .done, result := some .ok }
  { t with store := { t.store with postList := [.slot 0] } }

/-- A slotless result. -/
def refusedEntry : Slotless := { ring := 0, tag := 7, take := 0, station := 1, status := .badLength }

/-- `run` with a slotless result first on the post list. -/
def postingSlotless : State := { run with store := { run.store with postList := [.slotless refusedEntry] } }

/-- A report of one byte, and `run` with it queued. -/
def report : Report := { station := 0, payload := [0x11], source := .poll }
def reporting : State := { run with post := { run.post with reports := [report], unsolCredits := 1 } }

theorem witness_ExchangeRecordIsWrittenFirst :
    (posting.ctrl.state = .running ∧ posting.port.record = none ∧ posting.store.postList = .slot 0 :: [] ∧
      posting.xfer 0 = none ∧ (posting.slot 0).result = some .ok) ∧
    (postingSlotless.port.record = none ∧ postingSlotless.store.postList = .slotless refusedEntry :: []) := by decide +kernel

theorem witness_OtherRecordsFollowInOrder :
    let noticed := run.setStn 0 { stn0 with notice := some .joined }
    let ringFaulted := { run with post := { run.post with ringFault := run.post.ringFault.set 3 true } }
    let strayed := { run with post := { run.post with stray := run.post.stray.set 39 true } }
    (reporting.port.record = none ∧ reporting.store.postList = [] ∧ reporting.ctrl.state = .running ∧
      reporting.post.reports = report :: [] ∧ report.payload.length ≤ 48) ∧
    (noticed.post.reports = [] ∧ noticed.post.unconsumed + (noticed.post.exCredits + noticed.post.unsolCredits
        + noticed.post.writeCredit) < noticed.post.size ∧ (noticed.stn 0).notice = some .joined ∧
      (∀ b, b < (0 : StationId) → (noticed.stn b).notice = none)) ∧
    ((∀ a, (ringFaulted.stn a).notice = none) ∧ ringFaulted.post.ringFault[3] = true ∧
      (∀ q : RingId, q < 3 → ringFaulted.post.ringFault[q.val] = false)) ∧
    ((∀ a, (strayed.stn a).notice = none) ∧ (∀ r : RingId, strayed.post.ringFault[r.val] = false) ∧
      strayed.post.stray[39] = true ∧ (∀ b : StationId, b < 39 → strayed.post.stray[b.val] = false)) ∧
    (run.port.record = none ∧ run.store.postList = [] ∧ run.post.reports = [] ∧ (∀ a, (run.stn a).notice = none) ∧
      ∀ a : StationId, run.post.stray[a.val] = false) := by decide +kernel

/-- `s` with a record write in progress. -/
def writing (s : State) (src : RecSource) : State :=
  { s with port := { s.port with record := some { source := src, addr := 0, data := zeros 64 } } }

/-- `s` with a BARRIER of ring 0 and take number `n` waiting in slot 1. -/
def barred (s : State) (n : Word) : State :=
  (s.setSlot 1 { slotOf .barrier with station := none, take := n }).setBarrier 0 [1]

/-- No barrier, one that the post ends, and one that waits for the slotless result of take number 0 behind the posted exchange. -/
theorem witness_RecordWriteEnds :
    ((writing posting .post).port.record = some { source := .post, addr := 0, data := zeros 64 } ∧
      (writing posting .post).ctrl.state = .running ∧ (∀ r, ((writing posting .post).ring r).held = false) ∧
      (writing posting .post).store.postList = .slot 0 :: [] ∧
      (writing posting .post).barrier ((writing posting .post).slot 0).ring = []) ∧
    ((writing postingSlotless .post).store.postList = .slotless refusedEntry :: [] ∧
      (writing postingSlotless .post).barrier refusedEntry.ring = []) ∧
    ((barred posting 1).barrier ((barred posting 1).slot 0).ring = [1] ∧ ((barred posting 1).slot 1).kind = some .barrier ∧
      ((barred posting 1).slot 1).ring = ((barred posting 1).slot 0).ring ∧ ¬(barred posting 1).barrierWaits 0 (some 0) [] 1 ∧
      (barred posting 1).barrierWaits 0 (some 0) [.slotless refusedEntry] 1) ∧
    (barred postingSlotless 1).barrier refusedEntry.ring = [1] ∧ ¬(barred postingSlotless 1).barrierWaits 0 none [] 1 ∧
    (writing reporting .report).post.reports = report :: [] ∧ (writing run .event).port.record ≠ none := by
  refine ⟨by decide +kernel, by decide +kernel, ⟨by decide +kernel, by decide +kernel, by decide +kernel, ?_,
    .inr ⟨refusedEntry, List.mem_singleton_self _, rfl, by unfold EarlierTake; decide⟩⟩, by decide +kernel, ?_, by decide +kernel⟩
  all_goals
    rintro (⟨q, h⟩ | ⟨q, h, -⟩)
    · revert q; unfold EarlierTake; decide +kernel
    · simp at h

/-! ### Suspension, resume and the laws -/

/-- SUSPENDING in one part. -/
def suspending (p : SuspPart) : State := (inState .suspending).setSeq (.suspending .graceful p)

/-- `s` with a transaction of the suspend unit in flight. -/
def imaging (s : State) (x : ImageTxn) : State := { s with port := { s.port with image := some x } }

theorem witness_SuspensionWritesTheImage :
    ((suspending .quiet).ctrl.state = .suspending ∧ (suspending .quiet).susp.seq = .suspending .graceful .quiet ∧
      (suspending .quiet).link.turn = none ∧ (suspending .quiet).port.entry = none ∧
      (∀ i, (suspending .quiet).xfer i = none)) ∧
    ((suspending .drain).susp.seq = .suspending .graceful .drain ∧ (suspending .drain).store.postList = [] ∧
      (suspending .drain).post.reports = [] ∧ (suspending .drain).port.record = none) ∧
    ((imaging (suspending .image) (.bodyWrite 4160 [])).port.image = some (.bodyWrite 4160 []) ∧
      (imaging (suspending .image) (.bodyWrite 4160 [])).susp.imageBase < 2 ^ 64 ∧
      (imaging (suspending .image) (.bodyWrite 4160 [])).imageSlots.length < 2 ^ 16) ∧
    (imaging (suspending .image) (.headerWrite 4096 [])).port.image = some (.headerWrite 4096 []) := by decide +kernel

/-- A header of an image without contexts. -/
def header (magic nextBase : Nat) : ImageHeader :=
  { magic := magic, version := 1, stations := 40, contexts := 0, takes := Vector.replicate 4 0, nextBase := nextBase }

/-- RESUMING with the header read in flight. -/
def resuming : State := imaging ((inState .resuming).setSeq (.resuming none)) (.headerRead 4096)

theorem witness_ImageHeaderIsChecked :
    (resuming.ctrl.state = .resuming ∧ resuming.port.image = some (.headerRead 4096) ∧
      (header 0x4D470001 4096).bytes.length = 64 ∧ fieldAt (header 0x4D470001 4096).bytes 0 4 = 0x4D470001 ∧
      byteAt (header 0x4D470001 4096).bytes 4 = 1 ∧ byteAt (header 0x4D470001 4096).bytes 5 = 40 ∧
      fieldAt (header 0x4D470001 4096).bytes 6 2 = resuming.susp.saved ∧
      fieldAt (header 0x4D470001 4096).bytes 24 8 = 4096) ∧
    fieldAt (header 0x4D470002 4096).bytes 0 4 ≠ 0x4D470001 ∧
    fieldAt (header 0x4D470001 0).bytes 24 8 = 0 ∧ fieldAt (header 0x4D470001 4097).bytes 24 8 % 4096 ≠ 0 := by decide +kernel

/-- RESUMING with the header of an image of `n` contexts read, and a transaction in flight. -/
def resumingWith (n : Nat) (x : ImageTxn) : State :=
  imaging ((inState .resuming).setSeq (.resuming (some { header 0x4D470001 4096 with contexts := n }))) x

/-- A context of a SEND of `len` bytes on station 1 from ring `r`. -/
def contextBytes (r len : Byte) : List Byte := [0, 1, r, 1] ++ zeros 20 ++ [len] ++ zeros 23

theorem witness_ImageStagesAreApplied :
    ((resumingWith 0 (.stationsRead 4160)).ctrl.state = .resuming ∧
      (resumingWith 0 (.stationsRead 4160)).susp.seq = .resuming (some (header 0x4D470001 4096)) ∧
      (resumingWith 0 (.stationsRead 4160)).port.image = some (.stationsRead 4160) ∧ run.stationRecords.length = 320 ∧
      ∀ a, ((resumingWith 0 (.stationsRead 4160)).stn a).recordPasses ((run.stationRecords.drop (8 * a.val)).take 8) = true) ∧
    ((zeros 320).length = 320 ∧
      ((resumingWith 0 (.stationsRead 4160)).stn 0).recordPasses (((zeros 320).drop (8 * (0 : StationId).val)).take 8) = false) ∧
    ((resumingWith 1 (.contextsRead 4480 48)).port.image = some (.contextsRead 4480 (contextBytes 0 8).length) ∧
      (resumingWith 1 (.contextsRead 4480 48)).contextFailure [Context.ofBytes (contextBytes 0 8)] = none ∧
      (resumingWith 1 (.contextsRead 4480 48)).contextFailure [Context.ofBytes (contextBytes 4 8)] = some 0) := by
  decide +kernel

theorem witness_ImageChecksAreTheTables :
    stn0.record.length = 8 ∧ 1 ≤ stn0.targetDepth ∧ stn0.targetDepth ≤ 16 ∧ stn0.recordPasses stn0.record = true ∧
    stn0.recordPasses (zeros 8) = false ∧
    run.contextFailure [Context.ofBytes (contextBytes 0 8), Context.ofBytes (contextBytes 4 8)] = some 1 ∧
    run.contextFailure (List.replicate 4 (Context.ofBytes (contextBytes 0 8))) = none ∧
    run.contextFailure (List.replicate 5 (Context.ofBytes (contextBytes 0 8))) = some 4 := by decide +kernel

/-- A context of a SAFE of two repeats and of a BARRIER, both of ring 0. -/
def safeContext : Context := { Context.ofBytes (contextBytes 0 0) with kind := 6, station := 0, repeats := 2 }
def barrierContext : Context := { Context.ofBytes (contextBytes 0 0) with kind := 11, station := 0 }

theorem witness_ContextIsRebuilt_safe :
    (safeContext.exKind = some .safe ∧ ringOfNat safeContext.ring = some 0 ∧ run.lowestFree 0 ∧ 0 ∉ run.barrier 0 ∧
      run.contextValid safeContext .safe 0 = true ∧ safeContext.action ≠ 2 ∧
      run.contextValid { safeContext with blocks := 2 } .safe 0 = false ∧
      run.contextValid { safeContext with action := 2 } .safe 0 = true) ∧
    (barrierContext.exKind = some .barrier ∧ run.contextValid barrierContext .barrier 0 = true ∧ run.barrier 0 = [] ∧
      run.earlierUnposted 0 barrierContext.take = false ∧ (barriers 1 0).lowestFree 2 ∧ (barriers 1 0).barrier 0 ≠ []) := by
  unfold State.lowestFree; decide +kernel

theorem witness_ContextIsRebuilt :
    let c := Context.ofBytes (contextBytes 0 8)
    let bad := Context.ofBytes (contextBytes 0 0)
    (c.exKind = some .send ∧ ringOfNat c.ring = some 0 ∧ (run.slot 0).life = .free ∧ ExKind.send.usesLine = true ∧
      stationOfAddr c.station = some 0 ∧ run.contextValid c .send 0 = true ∧ (run.stn 0).state = .up ∧ c.unknown = false) ∧
    run.contextValid bad .send 0 = false ∧
    (run.contextValid { c with action := 2 } .send 0 = true ∧ run.contextValid { c with action := 1 } .send 0 = true) ∧
    ((run.stn 0).m ≠ ({ c with unknown := true, frameM := true } : Context).frameM) ∧
    ((run.setStn 0 { stn0 with state := .down }).stn 0).state = .down := by decide +kernel

theorem witness_ResumeEnds :
    ((resumingWith 0 (.spentWrite 4096 [])).ctrl.state ≠ .halted ∧ (resumingWith 0 (.spentWrite 4096 [])).ctrl.state ≠ .resetting ∧
      (resumingWith 0 (.spentWrite 4096 [])).port.image = some (.spentWrite 4096 []) ∧
      (resumingWith 0 (.spentWrite 4096 [])).susp.seq = .resuming (some (header 0x4D470001 4096)) ∧
      (∀ r, ((resumingWith 0 (.spentWrite 4096 [])).ring r).staged = none)) ∧
    resuming.port.image = some (.headerRead 4096) ∧
    (imaging (suspending .image) (.bodyWrite 4160 [])).port.image = some (.bodyWrite 4160 []) := by decide +kernel

/-- `s` with ring 0 HELD over a staged entry. -/
def holding (s : State) (bs : List Byte) : State := s.setRing 0 { ring0 with staged := some bs, held := true }

/-- The entry of ring 1, a STATION_SET of station 1, a FENCE of it, and one that reaches nothing, ends its read while ring 0 is HELD. -/
def otherEntry (s : State) (bs : List Byte) : State :=
  let t := holding s bs
  let u := t.setRing 1 { ring0 with base := 64 }
  { u with port := { u.port with entry := some { ring := 1, index := 0, addr := 64, discard := false } } }

theorem witness_HeldRingsAreValidatedAgain_take :
    ∀ bs ∈ [setBytes 1, entryBytes 8 1 0 0, entryBytes 6 0 1 0], ∃ u,
      let s := otherEntry (withSlot .send) (entryBytes 1 1 0 8)
      s.ctrl.state = .running ∧ (s.ring 0).held = true ∧ (s.ring 0).staged = some (entryBytes 1 1 0 8) ∧
        s.port.entry = some { ring := 1, index := 0, addr := 64, discard := false } ∧ (∀ q, q ≠ 0 → (s.ring q).held = false) ∧
        exec (.entryReadDone bs) (s.unstaged 0) = .next u ∧ ((∃ i ∈ s.list 0, i ∉ u.list 0) ↔ bs = entryBytes 8 1 0 0) := by
  intro bs hbs
  refine ⟨(match exec (.entryReadDone bs) ((otherEntry (withSlot .send) (entryBytes 1 1 0 8)).unstaged 0) with
      | .next u => u
      | .fault _ => State.reset
      | .refused _ => State.reset), by rfl, by decide +kernel, by decide +kernel, by rfl, by decide +kernel, ?_, ?_⟩
  · simp only [List.mem_cons, List.not_mem_nil, or_false] at hbs
    rcases hbs with rfl | rfl | rfl <;> rfl
  · revert bs; decide +kernel

/-- The post of the exchange in slot 0 frees its slot; the poll's end reaches no HELD ring; the last try of the WRITE ends its turn. -/
theorem witness_HeldRingsAreValidatedAgain :
    (∃ u, (holding (writing posting .post) (entryBytes 1 1 0 8)).ctrl.state = .running ∧
      ((holding (writing posting .post) (entryBytes 1 1 0 8)).ring 0).held = true ∧
      ((holding (writing posting .post) (entryBytes 1 1 0 8)).ring 0).staged = some (entryBytes 1 1 0 8) ∧
      (holding (writing posting .post) (entryBytes 1 1 0 8)).port.entry = none ∧ mayRelease .recordWriteDone = true ∧
      (∀ q, q ≠ 0 → ((holding (writing posting .post) (entryBytes 1 1 0 8)).ring q).held = false) ∧
      exec .recordWriteDone ((holding (writing posting .post) (entryBytes 1 1 0 8)).unstaged 0) = .next u) ∧
    (∃ u, mayRelease .startLimitExpiry = true ∧ (holding lastTry (entryBytes 1 1 0 8)).link.turn =
        some { turn (.exchange 0 0) .write with tries := 3 } ∧
      (∀ q, q ≠ 0 → ((holding lastTry (entryBytes 1 1 0 8)).ring q).held = true → (holding lastTry (entryBytes 1 1 0 8)).before q 0) ∧
      exec .startLimitExpiry ((holding lastTry (entryBytes 1 1 0 8)).unstaged 0) = .next u ∧
      exchangeTurnEnded (holding lastTry (entryBytes 1 1 0 8)) u) ∧
    (∃ u, (holding (resumingWith 0 (.spentWrite 4096 [])) (entryBytes 1 1 0 8)).ctrl.state = .resuming ∧
      (∀ q, q ≠ 0 → ((holding (resumingWith 0 (.spentWrite 4096 [])) (entryBytes 1 1 0 8)).ring q).staged = none) ∧
      exec .spentWriteDone ((holding (resumingWith 0 (.spentWrite 4096 [])) (entryBytes 1 1 0 8)).unstaged 0) = .next u) := by
  refine ⟨?_, ?_, ?_⟩
  · obtain ⟨u, h⟩ := of_goesOn (show goesOn (exec .recordWriteDone
      ((holding (writing posting .post) (entryBytes 1 1 0 8)).unstaged 0)) = true by decide +kernel)
    exact ⟨u, by decide +kernel, by decide +kernel, by decide +kernel, by decide +kernel, rfl, by decide +kernel, h⟩
  · refine ⟨(match exec .startLimitExpiry ((holding lastTry (entryBytes 1 1 0 8)).unstaged 0) with
      | .next u => u
      | .fault _ => State.reset
      | .refused _ => State.reset), rfl, by decide +kernel, ?_, by rfl, ?_⟩
    · unfold State.before; decide +kernel
    · exact ⟨_, rfl, rfl, by decide +kernel⟩
  · obtain ⟨u, h⟩ := of_goesOn (show goesOn (exec .spentWriteDone
      ((holding (resumingWith 0 (.spentWrite 4096 [])) (entryBytes 1 1 0 8)).unstaged 0)) = true by decide +kernel)
    exact ⟨u, by decide +kernel, by decide +kernel, h⟩

theorem witness_StoppedPartIgnoresCompletions :
    let s := inState .halted
    (s.setXfer 0 (some (.read block.form 0))).xfer 0 = some (.read block.form 0) ∧
    (s.setXfer 0 (some (.write 0 [1]))).xfer 0 = some (.write 0 [1]) ∧
    s.ctrl.state = .halted ∧ { s with port := { s.port with config := some 0 } }.port.config = some 0 ∧
    (zeros 744).length = 744 ∧ (fetching s).port.entry ≠ none ∧ (writing s .post).port.record ≠ none ∧
    (imaging s (.bodyWrite 0 [])).port.image = some (.bodyWrite 0 []) ∧
    (imaging s (.headerWrite 0 [])).port.image = some (.headerWrite 0 []) ∧
    (imaging s (.headerRead 0)).port.image = some (.headerRead 0) ∧
    (imaging s (.stationsRead 0)).port.image = some (.stationsRead 0) ∧
    (imaging s (.contextsRead 0 0)).port.image = some (.contextsRead 0 0) ∧
    (imaging s (.spentWrite 0 [])).port.image = some (.spentWrite 0 []) := by decide +kernel

theorem witness_EventsThatCannotOccurStop :
    State.reset.port.config = none ∧ State.reset.port.entry = none ∧ State.reset.port.record = none ∧
    State.reset.xfer 0 = none ∧ State.reset.port.image = none ∧ configuring.port.config = some 0 ∧
    (fetching run).port.entry ≠ none ∧ State.reset.ctrl.state ≠ .running ∧ State.reset.link.phase ≠ .sending ∧
    State.reset.link.phase ≠ .listening ∧ State.reset.link.phase ≠ .retryGuard ∧ State.reset.arb.emptyTimer = none ∧
    (State.reset.stn 0).holdOff = none := by decide +kernel

/-- Completions of another kind and of another length than those in flight; a listen period with and without a character. -/
theorem witness_EventsThatCannotOccurStop_kind :
    let s := imaging (resuming.setXfer 0 (some (.read block.form 0))) (.headerRead 4096)
    (∀ n d, s.xfer 0 ≠ some (.write n d)) ∧ ([] : List Byte).length ≠ block.form.size ∧ s.port.image = some (.headerRead 4096) ∧
    (∀ n, s.port.image ≠ some (.stationsRead n)) ∧ ([] : List Byte).length ≠ 64 ∧ (polling []).link.rx = [] ∧
    (polling [0xA6]).link.rx ≠ [] ∧ rxProgress ((polling [0xA6]).link.rx ++ [0x81]) ≠ .frame ∧
    (polling []).works (turn (.poll 0) .poll) .listening ∧ ∀ u, ¬State.reset.works u .listening := by
  refine ⟨fun n d h => by simp [imaging, State.xfer, State.setXfer] at h, by decide +kernel, rfl,
    fun n h => by simp [imaging] at h, by decide, rfl, by decide +kernel, by decide +kernel, ?_, ?_⟩
  · unfold State.works; decide +kernel
  · rintro u ⟨h, -⟩; revert h; decide +kernel

theorem witness_HaltedIsFrozen :
    ∃ t, (inState .halted).ctrl.state = .halted ∧ Instr.irqCauseWrite 8 ≠ .powerOn ∧ namedBy (.irqCauseWrite 8) ≠ .fullReset ∧
      exec (.irqCauseWrite 8) (inState .halted) = .next t := by
  obtain ⟨t, h⟩ := of_goesOn (show goesOn (exec (.irqCauseWrite 8) (inState .halted)) = true by decide +kernel)
  exact ⟨t, by decide +kernel, by decide, by decide, h⟩

/-- A poll whose frame is being sent. -/
def pollSending : State :=
  let t := atPhase run (turn (.poll 0) .poll) .sending []
  { t with
    link := { t.link with driverEnable := true, phaseLeft := 6 }
    post := { t.post with unsolCredits := 1 } }

theorem pollSending_engineLaw : pollSending.engineLaw :=
  ⟨fun _ => Or.inl (Or.inl (by decide +kernel)), fun _ => ⟨by decide +kernel, by decide +kernel, Or.inl (by decide +kernel)⟩,
    fun h => absurd (show pollSending.port.config = none by decide +kernel) h,
    fun h => absurd (show pollSending.port.record = none by decide +kernel) h,
    fun i h => absurd ((show ∀ i, pollSending.xfer i = none by decide +kernel) i) h,
    fun _ _ h => absurd h (by decide +kernel),
    fun x h => absurd ((show pollSending.port.image = none by decide +kernel).symm.trans h) (by simp)⟩

theorem witness_ControllerTransitions :
    ∃ t, pollSending.engineLaw ∧ exec .suspendImmediate pollSending = .next t := by
  obtain ⟨t, h⟩ := of_goesOn (show goesOn (exec .suspendImmediate pollSending) = true by decide +kernel)
  exact ⟨t, pollSending_engineLaw, h⟩

theorem witness_ConfigurationStaysFixed :
    ∃ t, reconfigures .masterFrameEnd = false ∧ exec .masterFrameEnd pollSending = .next t := by
  obtain ⟨t, h⟩ := of_goesOn (show goesOn (exec .masterFrameEnd pollSending) = true by decide +kernel)
  exact ⟨t, rfl, h⟩

theorem witness_ImageAlignmentIsKept : ∃ t, (next .suspendGraceful run).imageLaw ∧ step (next .suspendGraceful run) = .next t := by
  obtain ⟨t, h⟩ := of_goesOn (show goesOn (step (next .suspendGraceful run)) = true by decide +kernel)
  refine ⟨t, ⟨by decide +kernel, fun x hx => ?_⟩, h⟩
  exact absurd ((show (next .suspendGraceful run).susp.seq = .none by decide +kernel).symm.trans hx) (by simp)

/-- A search is under way: the CALL step over 1 to 20 is being sent, and 21 to 40 waits. -/
def searching : State :=
  let t := atPhase run (turn (.call 1 20) .call) .sending []
  { t with
    arb := { t.arb with attnInterval := 1 }
    res := { t.res with
      stack := [{ lo := 21, hi := 40, second := false }], reserved := true
      step := .call { lo := 1, hi := 20, second := false } }
    post := { t.post with unsolCredits := 1 } }

theorem witness_AttentionStackLawIsKept :
    ∃ t, (next .masterFrameEnd searching).attentionLaw ∧ step (next .masterFrameEnd searching) = .next t := by
  obtain ⟨t, h⟩ := of_goesOn (show goesOn (step (next .masterFrameEnd searching)) = true by decide +kernel)
  refine ⟨t, ⟨by decide +kernel, ?_, ?_, by decide +kernel⟩, h⟩
  · intro r hr
    have hs : (next .masterFrameEnd searching).res.stack = [{ lo := 21, hi := 40, second := false }] := by decide +kernel
    rw [hs, List.mem_singleton] at hr
    subst hr
    unfold SearchRange.within
    decide +kernel
  · intro u lo hi hu hp
    have ht : (next .masterFrameEnd searching).link.turn = some (turn (.call 1 20) .call) := by decide +kernel
    rw [ht, Option.some.injEq] at hu
    subst hu
    simp only [turn, Purpose.call.injEq] at hp
    obtain ⟨rfl, rfl⟩ := hp
    refine ⟨{ lo := 1, hi := 20, second := false }, by decide +kernel, rfl, rfl, ?_⟩
    unfold SearchRange.within
    decide +kernel

theorem witness_LineAndPortLawIsKept :
    ∃ t, (next .masterFrameEnd pollSending).engineLaw ∧ step (next .masterFrameEnd pollSending) = .next t := by
  obtain ⟨t, h⟩ := of_goesOn (show goesOn (step (next .masterFrameEnd pollSending)) = true by decide +kernel)
  exact ⟨t, pollSending_engineLaw, h⟩

theorem witness_ReportQueueLawIsKept :
    ∃ t, (next .masterFrameEnd pollSending).reportLaw ∧ step (next .masterFrameEnd pollSending) = .next t := by
  obtain ⟨t, h⟩ := of_goesOn (show goesOn (step (next .masterFrameEnd pollSending)) = true by decide +kernel)
  have ht : (next .masterFrameEnd pollSending).link.turn = some (turn (.poll 0) .poll) := by decide +kernel
  refine ⟨t, ⟨by decide +kernel, by decide +kernel, fun h => absurd (by decide +kernel) h, ?_, ?_, ?_, ?_⟩, h⟩
  · rintro ⟨u, hu, hc⟩
    rw [ht, Option.some.injEq] at hu
    subst hu
    simp [turn] at hc
  · intro u lo hi hu hp
    rw [ht, Option.some.injEq] at hu
    subst hu
    simp [turn] at hp
  · intro w hw
    exact absurd ((show (next .masterFrameEnd pollSending).port.record = none by decide +kernel).symm.trans hw) (by simp)
  · decide +kernel

/-- The frame of a SEND's WRITE is being sent, the last command waits, and every law holds. -/
def lawful : State :=
  let t := atPhase ((run.setSlot 0 { slotOf .send with held := some block }).setList 0 [0]) (turn (.exchange 0 0) .write) .sending []
  next .masterFrameEnd { t with
    link := { t.link with driverEnable := true, phaseLeft := 8 }, post := { t.post with exCredits := 1 } }

theorem lawful_turn : lawful.link.turn = some (turn (.exchange 0 0) .write) := by decide +kernel
theorem lawful_record : lawful.port.record = none := by decide +kernel
theorem lawful_image : lawful.port.image = none := by decide +kernel
theorem lawful_xfer : ∀ i, lawful.xfer i = none := by decide +kernel

theorem lawful_engineLaw : lawful.engineLaw :=
  ⟨fun _ => Or.inl (Or.inl (by decide +kernel)), fun _ => ⟨by decide +kernel, by decide +kernel, Or.inl (by decide +kernel)⟩,
    fun h => absurd (show lawful.port.config = none by decide +kernel) h, fun h => absurd lawful_record h,
    fun i h => absurd (lawful_xfer i) h,
    fun _ _ h => absurd h (by decide +kernel), fun _ h => absurd (lawful_image.symm.trans h) (by simp)⟩

theorem lawful_slotLaw : lawful.slotLaw := by
  have hl : ∀ a, lawful.list a = if a = 0 then [0] else [] := by decide +kernel
  refine ⟨by decide +kernel, by decide +kernel, by decide +kernel, ?_, by decide +kernel, by decide +kernel, by decide +kernel,
    ?_, by decide +kernel, ?_, ?_, ?_, ?_⟩
  · intro a i hi
    rw [hl] at hi
    split at hi
    · subst a; rw [List.mem_singleton] at hi; subst hi
      exact ⟨by decide +kernel, .send, by decide +kernel, rfl⟩
    · simp at hi
  · intro u hu
    rw [lawful_turn, Option.some.injEq] at hu
    subst hu
    refine ⟨by decide +kernel, fun i a h => ?_, fun i h => by simp [turn] at h⟩
    simp only [turn, Purpose.exchange.injEq] at h
    obtain ⟨rfl, rfl⟩ := h
    exact ⟨by decide +kernel, lawful_xfer _⟩
  · intro i x h; rw [lawful_xfer] at h; simp at h
  · intro w h; rw [lawful_record] at h; simp at h
  · rintro (h | h)
    · exact absurd h (by decide +kernel)
    · exact absurd h.1 (by decide +kernel)
  · intro x h; rw [lawful_image] at h; simp at h

theorem lawful_depthLaw : lawful.depthLaw := by unfold State.depthLaw; decide +kernel

theorem lawful_reportLaw : lawful.reportLaw := by
  refine ⟨by decide +kernel, by decide +kernel, fun h => absurd (by decide +kernel) h, ?_, ?_, ?_, by decide +kernel⟩
  · rintro ⟨u, hu, hc⟩
    rw [lawful_turn, Option.some.injEq] at hu
    subst hu
    simp [turn] at hc
  · intro u lo hi hu hp
    rw [lawful_turn, Option.some.injEq] at hu
    subst hu
    simp [turn] at hp
  · intro w hw; rw [lawful_record] at hw; simp at hw

theorem lawful_creditLaw : lawful.creditLaw := by
  refine ⟨by decide +kernel, fun _ => ⟨?_, fun _ => by decide +kernel, by decide +kernel⟩,
    fun _ => ⟨by decide +kernel, fun h => absurd h (by decide +kernel)⟩, ?_⟩
  · rintro (h | h)
    · exact absurd h (by decide +kernel)
    · exact absurd h.1 (by decide +kernel)
  · intro e h
    rw [show lawful.port.entry = none by decide +kernel] at h
    simp at h

theorem witness_SlotAccountingIsKept :
    ∃ t, lawful.engineLaw ∧ lawful.slotLaw ∧ lawful.depthLaw ∧ lawful.reportLaw ∧ lawful.creditLaw ∧ step lawful = .next t := by
  obtain ⟨t, h⟩ := of_goesOn (show goesOn (step lawful) = true by decide +kernel)
  exact ⟨t, lawful_engineLaw, lawful_slotLaw, lawful_depthLaw, lawful_reportLaw, lawful_creditLaw, h⟩

theorem witness_LineFramesRoundTrip :
    ([0x11] : List Byte).length ≤ 120 ∧ crc [0x81, 0x0B, 0x01, 0x11] = 0xEE9C#16 := by decide +kernel

theorem witness_ImageRoundTrip :
    ((header 0x4D470001 4096).magic < 2 ^ 32 ∧ (header 0x4D470001 4096).nextBase < 2 ^ 64) ∧
    ((stn0.state = .vacant ↔ stn0.present = false) ∧ stn0.failures < 15 ∧ stn0.resync = false ∧ stn0.holdOff = none ∧
      stn0.offered = none ∧ 1 ≤ stn0.targetDepth ∧ stn0.targetDepth ≤ stn0.depth ∧ stn0.depth ≤ 16) ∧
    ((slotOf .send).kind = some .send ∧ (slotOf .send).buf < 2 ^ 64 ∧ (slotOf .send).len < 2 ^ 16) ∧
    (((waiting .up 0).slot 1).unknown = true ∧ ((waiting .up 0).slot 1).station = some 0 ∧ ((waiting .up 0).slot 0).unknown = false) ∧
    (contextBytes 0 8).length = 48 ∧ stn0.recordPasses stn0.record = true := by decide +kernel

/-- A PROBE whose slot and context hold a buffer, a length and a repeat count saves none of them (Table 10-5). -/
theorem test_context_of_probe :
    let x := { slotOf .probe with buf := 4096, len := 8, repeats := 3 }
    let c := Context.ofBytes ((run.setSlot 0 x).context 0)
    c.buf = 0 ∧ c.len = 0 ∧ c.repeats = 0 ∧ c.kind = 4 ∧
    ({ c with buf := 4096, len := 8, bytes := 1, repeats := 3 }.slot .probe 0 0).len = 0 := by decide +kernel

end Sys2Proof.Tests
end

