-- ==== Sys2Proof/Proofs/ImageHeader.lean ====
section
/-! PROOFS. The completion of the header read (R183): its checks in order, what a failing header does, what a passing one sets. -/

namespace Sys2Proof.Machine

/-! ### The rings under the suspend unit's updates -/

@[simp] theorem State.ring_setImage (s : State) (x : Option ImageTxn) (r : RingId) : (s.setImage x).ring r = s.ring r := rfl
@[simp] theorem State.ring_setSeq (s : State) (q : Sequence) (r : RingId) : (s.setSeq q).ring r = s.ring r := rfl
@[simp] theorem State.ring_restoreTakes (s : State) (h : ImageHeader) (r : RingId) :
    (s.restoreTakes h).ring r = { s.ring r with nextTake := h.takes[r.val] } := by
  simp [State.restoreTakes, State.ring]

@[simp] theorem ImageHeader.ofBytes_takes (bs : List Byte) (r : RingId) :
    (ImageHeader.ofBytes bs).takes[r.val] = BitVec.ofNat 32 (fieldAt bs (8 + 4 * r.val) 4) := by
  simp [ImageHeader.ofBytes]

/-! ### The checks -/

/-- One of the four checks of R183 that give IMAGE_BAD fails, `saved` being the saved count. -/
def ImageHeader.Bad (h : ImageHeader) (saved : Nat) : Prop :=
  h.magic ≠ Config.magicValid ∨ h.version ≠ 1 ∨ h.stations ≠ 40 ∨ 64 < h.contexts ∨ h.contexts ≠ saved

/-- The check of R183 that gives IMAGE_ALIGN fails. -/
def ImageHeader.Misaligned (h : ImageHeader) : Prop := h.nextBase = 0 ∨ h.nextBase % 4096 ≠ 0

theorem headerFailure_of_bad {h : ImageHeader} {saved : Nat} (hb : h.Bad saved) :
    headerFailure h saved = some .imageBad := if_pos hb

theorem headerFailure_of_misaligned {h : ImageHeader} {saved : Nat} (hb : ¬h.Bad saved) (ha : h.Misaligned) :
    headerFailure h saved = some .imageAlign := (if_neg hb).trans (if_pos ha)

theorem headerFailure_of_passes {h : ImageHeader} {saved : Nat} (hb : ¬h.Bad saved) (ha : ¬h.Misaligned) :
    headerFailure h saved = none := (if_neg hb).trans (if_neg ha)

/-! ### The completion -/

section
variable {s : State} {addr : Nat} {data : List Byte}

/-- A header of the right length that arrives in RESUMING is applied. -/
theorem exec_headerReadDone_resuming (hs : s.ctrl.state = .resuming) (hi : s.port.image = some (.headerRead addr))
    (hl : data.length = 64) :
    exec (.headerReadDone data) s = .next ((s.setImage none).applyHeader (ImageHeader.ofBytes data)) := by
  have hdeaf : s.deaf = false := by simp [State.deaf, hs]
  simp [exec, execHeaderReadDone, hi, hl, hdeaf]

/-- A header that fails a check halts the part with the check's fault code, and nothing of it is applied. -/
theorem exec_headerReadDone_fails {c : FaultCode} (hs : s.ctrl.state = .resuming)
    (hi : s.port.image = some (.headerRead addr)) (hl : data.length = 64)
    (hf : headerFailure (ImageHeader.ofBytes data) s.susp.saved = some c) :
    exec (.headerReadDone data) s = .next ((s.setImage none).halt c 0) := by
  have happly : (s.setImage none).applyHeader (ImageHeader.ofBytes data) = (s.setImage none).halt c 0 := by
    unfold State.applyHeader
    rw [show headerFailure _ (s.setImage none).susp.saved = some c from hf]
  rw [exec_headerReadDone_resuming hs hi hl, happly]

/-- A header that passes gives its take numbers and is kept, and the read of the station records starts. -/
theorem exec_headerReadDone_passes {h : ImageHeader} (hs : s.ctrl.state = .resuming)
    (hi : s.port.image = some (.headerRead addr)) (hl : data.length = 64) (hh : h = ImageHeader.ofBytes data)
    (hf : headerFailure h s.susp.saved = none) :
    exec (.headerReadDone data) s = .next ((((s.setImage none).restoreTakes h).setSeq (.resuming (some h))).setImage
      (some (.stationsRead (s.susp.imageBase + 64)))) := by
  have happly : (s.setImage none).applyHeader h = (((s.setImage none).restoreTakes h).setSeq (.resuming (some h))).setImage
      (some (.stationsRead (s.susp.imageBase + 64))) := by
    unfold State.applyHeader
    rw [show headerFailure h (s.setImage none).susp.saved = none from hf]
    rfl
  rw [exec_headerReadDone_resuming hs hi hl, ← hh, happly]

end

/-- Settles O41: the first check that fails decides between the two halts, and a header that passes all five is applied. -/
theorem imageHeaderIsChecked : Obligations.ImageHeaderIsChecked := by
  unfold Obligations.ImageHeaderIsChecked
  intro s addr data hs hi hl
  refine ⟨fun hbad => ?_, fun hmagic hversion hstations hcount hsaved => ?_⟩
  · have hf := headerFailure_of_bad (h := ImageHeader.ofBytes data) hbad
    exact ⟨_, exec_headerReadDone_fails hs hi hl hf, rfl, rfl, rfl, rfl, rfl, rfl, rfl, rfl⟩
  have hgood : ¬(ImageHeader.ofBytes data).Bad s.susp.saved := by
    rintro (h | h | h | h | h)
    exacts [h hmagic, h hversion, h hstations, absurd hcount (Nat.not_le.mpr h), h hsaved]
  refine ⟨fun halign => ?_, fun hnonzero hpage => ?_⟩
  · have hf := headerFailure_of_misaligned hgood halign
    exact ⟨_, exec_headerReadDone_fails hs hi hl hf, rfl, rfl, rfl, rfl, rfl, rfl, rfl, rfl⟩
  · have haligned : ¬(ImageHeader.ofBytes data).Misaligned := by
      rintro (h | h)
      exacts [hnonzero h, h hpage]
    have hf := headerFailure_of_passes hgood haligned
    exact ⟨_, ImageHeader.ofBytes data, exec_headerReadDone_passes hs hi hl rfl hf, rfl, rfl, rfl, rfl, rfl, rfl,
      fun r => by simp, rfl, rfl, rfl, rfl⟩

end Sys2Proof.Machine
end

/-! PROOFS. The bits of the register window (R204, Table 12-12): what a read leaves at 0, which bits a write acts on, and the
field numbers of the configuration checks, from which the fault detail comes (R195, Table 11-3). -/

namespace Sys2Proof.Machine

/-! ### Words that stay inside a mask -/

/-- `w` is 0 in every bit outside the mask `m`. -/
def Within (w m : Word) : Prop := w &&& ~~~m = 0#32

theorem within_iff {w m : Word} : Within w m ↔ ∀ i < 32, w.getLsbD i = true → m.getLsbD i = true := by
  have hbit : ∀ i < 32, ((w &&& ~~~m).getLsbD i = (0#32).getLsbD i ↔ (w.getLsbD i = true → m.getLsbD i = true)) := by
    intro i hi
    simp [hi]
  exact ⟨fun h i hi => (hbit i hi).mp (by rw [h]),
    fun h => BitVec.eq_of_getLsbD_eq fun i hi => (hbit i hi).mpr (h i hi)⟩

/-- The mask of an `n`-bit field whose lowest bit is bit `k`. -/
def fieldMask (k n : Nat) : Word := BitVec.ofNat 32 (2 ^ k * (2 ^ n - 1))

/-- A field's value at the field's place stays inside the field. -/
theorem within_field {k n x : Nat} (hx : x < 2 ^ n) : Within (BitVec.ofNat 32 (2 ^ k * x)) (fieldMask k n) := by
  rw [within_iff]
  intro i hi
  simp only [fieldMask, BitVec.getLsbD_ofNat, hi, decide_true, Bool.true_and, Nat.testBit_two_pow_mul,
    Nat.testBit_two_pow_sub_one, Bool.and_eq_true, decide_eq_true_eq]
  rintro ⟨hk, hbit⟩
  refine ⟨hk, Nat.lt_of_not_le fun hn => ?_⟩
  have hzero : x.testBit (i - k) = false := Nat.testBit_lt_two_pow (hx.trans_le (Nat.pow_le_pow_right (by decide) hn))
  simp [hzero] at hbit

/-- A field at the foot of a register. -/
theorem within_lowField {n x : Nat} (hx : x < 2 ^ n) : Within (BitVec.ofNat 32 x) (fieldMask 0 n) := by
  simpa using within_field (k := 0) hx

/-- Words inside disjoint masks add without a carry. -/
theorem Within.add {v w m n : Word} (hv : Within v m) (hw : Within w n) (hmn : m &&& n = 0#32) :
    Within (v + w) (m ||| n) := by
  rw [within_iff] at hv hw
  have hdisjoint : v &&& w = 0#32 := BitVec.eq_of_getLsbD_eq fun i hi => by
    have hclash : ¬(m.getLsbD i = true ∧ n.getLsbD i = true) := by
      rw [← Bool.and_eq_true, ← BitVec.getLsbD_and, hmn]
      simp
    simpa using fun hvi hwi => hclash ⟨hv i hi hvi, hw i hi hwi⟩
  rw [BitVec.add_eq_or_of_and_eq_zero v w hdisjoint, within_iff]
  intro i hi
  simp only [BitVec.getLsbD_or, Bool.or_eq_true]
  exact Or.imp (hv i hi) (hw i hi)

theorem within_allOnes (w : Word) : Within w 0xFFFFFFFF#32 := BitVec.and_zero

theorem zero_within (m : Word) : Within 0#32 m := BitVec.zero_and

/-- A field of bits as a register of the window shows it. -/
theorem within_setWidth {n : Nat} (x : BitVec n) : Within (x.setWidth 32) (fieldMask 0 n) := by
  simpa only [BitVec.ofNat_toNat] using within_lowField x.isLt

/-! ### What a read leaves at 0 (Table 12-12) -/

theorem flagNat_lt (b : Bool) : flagNat b < 2 ^ 1 := by cases b <;> decide

theorem CtrlState.code_lt (c : CtrlState) : c.code < 2 ^ 3 := by cases c <;> decide

theorem CmdResult.code_lt (c : CmdResult) : c.code < 2 ^ 2 := by cases c <;> decide

theorem FaultCode.code_lt (c : FaultCode) : c.code < 2 ^ 3 := by cases c <;> decide

/-- An index register reads the index alone. -/
theorem within_index (n x : Nat) : Within (BitVec.ofNat 32 (x % 2 ^ n)) (fieldMask 0 n) :=
  within_lowField (Nat.mod_lt x (Nat.two_pow_pos n))

/-- STATE: the controller state in bits 2:0, the last command result in 5:4, the fault code in 10:8, INDEX in 15 and the fault
detail in 24:16. -/
theorem readReg_state_within (s : State) : Within (s.readReg .state) 0x01FF8737#32 := by
  have hstate := within_lowField s.ctrl.state.code_lt
  have hresult := within_field (k := 4) s.ctrl.lastResult.code_lt
  have hcode := within_field (k := 8) s.ctrl.faultCode.code_lt
  have hindex := within_field (k := 15) (flagNat_lt s.irq.index)
  have hdetail := within_field (k := 16) (Nat.mod_lt s.ctrl.faultDetail (Nat.two_pow_pos 9))
  simp only [State.readReg, BitVec.ofNat_add]
  exact (((hstate.add hresult (by decide)).add hcode (by decide)).add hindex (by decide)).add hdetail (by decide)

/-- CQ_TAIL: the index in bits 11:0 and the phase in bit 31. -/
theorem readReg_cqTail_within (s : State) : Within (s.readReg .cqTail) 0x80000FFF#32 := by
  have hphase := within_field (k := 31) (flagNat_lt s.post.phase)
  simp only [State.readReg, BitVec.ofNat_add]
  exact (within_index 12 s.post.tail).add hphase (by decide)

/-- SQ_HEAD2_3: the head of ring 2 in bits 9:0 and that of ring 3 in bits 25:16. -/
theorem readReg_sqHead23_within (s : State) : Within (s.readReg .sqHead23) 0x03FF03FF#32 := by
  have hring3 := within_field (k := 16) (Nat.mod_lt (s.ring 3).head (Nat.two_pow_pos 10))
  simp only [State.readReg, BitVec.ofNat_add]
  exact (within_index 10 (s.ring 2).head).add hring3 (by decide)

/-! ### The bits a write acts on (R145, R169, R171) -/

/-- The low `n` bits of a word are those that the mask of its lowest `n` bits keeps. -/
theorem toNat_and_fieldMask_mod {n : Nat} (hn : n ≤ 32) (v : Word) : (v &&& fieldMask 0 n).toNat % 2 ^ n = v.toNat % 2 ^ n := by
  have hmask : (fieldMask 0 n).toNat = 2 ^ n - 1 := by
    have hle : 2 ^ n ≤ 2 ^ 32 := Nat.pow_le_pow_right (by decide) hn
    simp only [fieldMask, BitVec.toNat_ofNat, Nat.pow_zero, Nat.one_mul]
    exact Nat.mod_eq_of_lt (by have := Nat.two_pow_pos n; omega)
  rw [BitVec.toNat_and, hmask, Nat.and_two_pow_sub_one_eq_mod, Nat.mod_mod]

theorem exec_cqHeadWrite_congr {v w : Word} (h : v.toNat % 2 ^ 12 = w.toNat % 2 ^ 12) (s : State) :
    exec (.cqHeadWrite v) s = exec (.cqHeadWrite w) s := by
  simp only [exec, execCqHeadWrite, h]

theorem exec_sqTailWrite_congr {v w : Word} (h : v.toNat % 2 ^ 10 = w.toNat % 2 ^ 10) (r : RingId) (s : State) :
    exec (.sqTailWrite r v) s = exec (.sqTailWrite r w) s := by
  simp only [exec, execSqTailWrite, h]

/-- The four sticky causes are cleared by bits 4:1 alone; bit 0, CQ, is a level. -/
theorem Interrupt.clear_and_sticky (x : Interrupt) (v : Word) : x.clear (v &&& 0x1E#32) = x.clear v := by
  simp [Interrupt.clear]

theorem exec_irqEnableWrite_of_not_resetting {s : State} (hs : s.ctrl.state ≠ .resetting) (v : Word) :
    exec (.irqEnableWrite v) s = .next { s with irq := { s.irq with enable := v.extractLsb' 0 5 } } :=
  if_neg hs

/-! ### A COMMAND word outside Table 12-11 (R204) -/

theorem commandOf_unknown {code : Word} (h : code.toNat = 0 ∨ 6 < code.toNat) : commandOf code = .unknownCommand code := by
  unfold commandOf
  split
  any_goals omega
  rfl

theorem exec_unknownCommand_refused {code : Word} (h : code.toNat = 0 ∨ 6 < code.toNat) (s : State) :
    exec (.unknownCommand code) s = .next (s.setResult .refused) := by
  simp only [exec, execUnknownCommand, State.commandWrite, commandOf_unknown h, State.refuse]

/-! ### The field numbers of the configuration checks (Table 11-3) -/

/-- `k` runs of `m` numbers, each beginning where the one before ends, are one run. -/
theorem flatMap_range'_blocks (a m k : Nat) :
    (List.range k).flatMap (fun i => List.range' (a + m * i) m) = List.range' a (m * k) := by
  induction k with
  | zero => rfl
  | succ k ih =>
    rw [List.range_succ, List.flatMap_append, ih, List.flatMap_singleton, List.range'_append_1, Nat.mul_succ]

theorem scheduleChecks_numbers (bs : List Byte) : (scheduleChecks bs).map Prod.fst = List.range' 11 64 := by
  rw [scheduleChecks, List.map_map, List.range'_eq_map_range]
  rfl

/-- The checks of the record bear the numbers 1 to 482 of Table 11-3, each once and in ascending order. -/
theorem configChecks_numbers (bs : List Byte) : (configChecks bs).map Prod.fst = List.range' 1 482 := by
  have hrings : ((List.range 4).flatMap (ringChecks bs)).map Prod.fst = List.range' 78 20 := by
    rw [List.map_flatMap]
    exact flatMap_range'_blocks 78 5 4
  have hwindows : ((List.range 16).flatMap (windowChecks bs)).map Prod.fst = List.range' 99 64 := by
    rw [List.map_flatMap]
    exact flatMap_range'_blocks 99 4 16
  have hstations : ((List.range 40).flatMap (stationChecks bs)).map Prod.fst = List.range' 163 320 := by
    rw [List.map_flatMap]
    exact flatMap_range'_blocks 163 8 40
  have hline : (lineChecks bs).map Prod.fst = List.range' 1 10 := rfl
  have hbase : (baseChecks bs).map Prod.fst = List.range' 75 3 := rfl
  have hcount : (windowCountCheck bs).map Prod.fst = List.range' 98 1 := rfl
  simp only [configChecks, List.map_append, hline, scheduleChecks_numbers, hbase, hrings, hcount, hwindows, hstations]
  rfl

theorem configFailure_mem_numbers {bs : List Byte} {n : Nat} (h : configFailure bs = some n) :
    n ∈ (configChecks bs).map Prod.fst := by
  obtain ⟨c, hfind, rfl⟩ := Option.map_eq_some_iff.mp h
  exact List.mem_map_of_mem (List.mem_of_find?_eq_some hfind)

theorem configFailure_le {bs : List Byte} {n : Nat} (h : configFailure bs = some n) : n ≤ 482 := by
  have hmem := configFailure_mem_numbers h
  rw [configChecks_numbers, List.mem_range'_1] at hmem
  omega

/-- Settles O10: each register read is a sum of fields inside disjoint masks, each write reads only the bits of its field, and the
fault detail is one of the field numbers 1 to 482. -/
theorem registerWindowBits : Obligations.RegisterWindowBits := by
  unfold Obligations.RegisterWindowBits
  refine ⟨fun s r => ?_, fun v s => ?_, fun r v s => ?_, fun v s => ?_, fun v s hs => ?_, fun code s hcode => ?_,
    fun data n hfail => ?_⟩
  · cases r with
    | ident => exact within_allOnes _
    | command => exact zero_within _
    | state => exact readReg_state_within s
    | irqCause => exact within_setWidth s.irqCause
    | irqEnable => exact within_setWidth s.irq.enable
    | configLo => exact within_allOnes _
    | configHi => exact within_allOnes _
    | cqHead => exact within_index 12 s.post.head
    | cqTail => exact readReg_cqTail_within s
    | sqTail r => exact within_index 10 (s.ring r).tail
    | sqHead0 => exact within_index 10 (s.ring 0).head
    | sqHead1 => exact within_index 10 (s.ring 1).head
    | sqHead23 => exact readReg_sqHead23_within s
  · exact exec_cqHeadWrite_congr (toNat_and_fieldMask_mod (n := 12) (by decide) v).symm s
  · exact exec_sqTailWrite_congr (toNat_and_fieldMask_mod (n := 10) (by decide) v).symm r s
  · simp only [exec, execIrqCauseWrite, Interrupt.clear_and_sticky]
  · exact exec_irqEnableWrite_of_not_resetting hs v
  · exact exec_unknownCommand_refused hcode s
  · have hle := configFailure_le hfail
    exact ⟨hle, by omega⟩

end Sys2Proof.Machine
